-- ==== Sys2Proof/Word.lean ====
section
/-! DEFINITION. The byte, the register address and the small closed sets of names that the spec
uses everywhere (00_scope.md R10, R4; 10_state.md R14, R25). -/

namespace Sys2Proof

/-- R10: a byte is 8 bits, bit 0 the least significant. -/
abbrev Byte := BitVec 8

/-- R25, R38: a chip register address is 5 bits wide. -/
abbrev RegAddr := BitVec 5

/-- R14: the three operating modes. -/
inductive Mode where
  | standby
  | rx
  | tx
deriving DecidableEq, Repr, Inhabited

/-- R4: the two output lines of the block. -/
inductive Line where
  | ce
  | csn
deriving DecidableEq, Repr

/-- The type of transport errors the host's interface is closed at.  The spec's `E` is open (R9, D31): it is
a type argument of `State` and of every meaning, and this is only the argument taken where none is given
(DESIGN CHOICE, log entry 3).  Its content is a name the environment chose. -/
structure TransportError where
  code : Nat
deriving DecidableEq, Repr, Inhabited

/-- R73: a field of a byte, bits `hi` down to `lo`. -/
structure Field where
  hi : Nat
  lo : Nat
deriving DecidableEq, Repr

end Sys2Proof
end

