-- ==== Sys2Proof/Config.lean ====
section
/-! DEFINITION. What is fixed for one block: the constants of R7, the type of the parameter record of R8
with its defaults and its constraints, and the free values (constants with no body: nothing can be proved
of their value).  The record itself is an argument: every definition that needs it takes it, and a state
carries the one its block is built with (`State.params`). -/

namespace Sys2Proof

namespace Config

/-- R7 `MAX_PAYLOAD`: at most 32 payload bytes. -/
def MAX_PAYLOAD : Nat := 32

/-- R7 `BUF_LEN`: the transaction buffer, 1 opcode byte and 32 payload bytes. -/
def BUF_LEN : Nat := 33

/-- R7 `REG_WIDTH_MIN`. -/
def REG_WIDTH_MIN : Nat := 1

/-- R7 `REG_WIDTH_MAX`. -/
def REG_WIDTH_MAX : Nat := 5

/-- R7 `DIR_READ`, the direction code in bits 7:5 of a register command (R55, 90_conflicts.md C1). -/
def DIR_READ : BitVec 3 := 0b000#3

/-- R7 `DIR_WRITE`. -/
def DIR_WRITE : BitVec 3 := 0b001#3

/-- R7 `AW_FIELD_BITS`: SETUP_AW's address-width field is 2 bits wide. -/
def AW_FIELD_BITS : Nat := 2

/-- R7 `RX_P_NO_BITS`: STATUS's pipe number field is 3 bits wide. -/
def RX_P_NO_BITS : Nat := 3

/-- R7 `AW_MAX_VALID`: the largest SETUP_AW byte the connectivity check accepts. -/
def AW_MAX_VALID : Nat := 3

/-- R9, D7 `DUMMY_BYTE`: the byte sent where a command's encoding defines none. -/
def DUMMY_BYTE : Byte := 0x00#8

/-- R8: the parameters no source gives, with the spec's defaults (general knowledge, log entry 1).
The last three positions are those of R26 and R29 that R8's table leaves out. -/
structure Params where
  OP_R_RX_PAYLOAD  : Byte := 0x61#8
  OP_W_TX_PAYLOAD  : Byte := 0xA0#8
  OP_R_RX_PL_WID   : Byte := 0x60#8
  OP_FLUSH_TX      : Byte := 0xE1#8
  OP_FLUSH_RX      : Byte := 0xE2#8
  OP_ACTIVATE      : Byte := 0x50#8
  ACTIVATE_KEY     : Byte := 0x73#8
  ADDR_CONFIG      : RegAddr := 0x00#5
  ADDR_SETUP_AW    : RegAddr := 0x03#5
  ADDR_STATUS      : RegAddr := 0x07#5
  ADDR_FIFO_STATUS : RegAddr := 0x17#5
  CONFIG_RESET     : Byte := 0x08#8
  CFG_PRIM_RX      : Nat := 0
  CFG_PWR_UP       : Nat := 1
  CFG_MASK_MAX_RT  : Nat := 4
  CFG_MASK_TX_DS   : Nat := 5
  CFG_MASK_RX_DR   : Nat := 6
  ST_TX_FULL       : Nat := 0
  ST_RX_P_NO       : Field := ⟨3, 1⟩
  ST_MAX_RT        : Nat := 4
  ST_TX_DS         : Nat := 5
  ST_RX_DR         : Nat := 6
  FS_RX_EMPTY      : Nat := 0
  FS_RX_FULL       : Nat := 1
  FS_TX_EMPTY      : Nat := 4
  FS_TX_FULL       : Nat := 5
  AW_FIELD         : Field := ⟨1, 0⟩
  CFG_CRCO         : Nat := 2
  CFG_EN_CRC       : Nat := 3
  FS_TX_REUSE      : Nat := 6
deriving DecidableEq, Repr

/-- R8's defaults: the record of a block that is given no other. -/
def defaults : Params := {}

/-- A field's positions are `n` bits of a byte. -/
def fieldSpans (f : Field) (n : Nat) : Prop := f.hi + 1 = f.lo + n ∧ f.hi < 8

/-- The opcode bytes of the six commands that are no register commands. -/
def Params.opcodes (p : Params) : List Byte :=
  [p.OP_R_RX_PAYLOAD, p.OP_W_TX_PAYLOAD, p.OP_R_RX_PL_WID, p.OP_FLUSH_TX, p.OP_FLUSH_RX, p.OP_ACTIVATE]

/-- The four register addresses the block itself uses. -/
def Params.addresses (p : Params) : List RegAddr :=
  [p.ADDR_CONFIG, p.ADDR_SETUP_AW, p.ADDR_STATUS, p.ADDR_FIFO_STATUS]

/-- The bit positions of CONFIG that have a name. -/
def Params.configBits (p : Params) : List Nat :=
  [p.CFG_PRIM_RX, p.CFG_PWR_UP, p.CFG_CRCO, p.CFG_EN_CRC, p.CFG_MASK_MAX_RT, p.CFG_MASK_TX_DS, p.CFG_MASK_RX_DR]

/-- The bit positions of STATUS that have a name, the pipe number field spelled out. -/
def Params.statusBits (p : Params) : List Nat :=
  [p.ST_TX_FULL, p.ST_MAX_RT, p.ST_TX_DS, p.ST_RX_DR] ++
    (List.range (p.ST_RX_P_NO.hi + 1 - p.ST_RX_P_NO.lo)).map (· + p.ST_RX_P_NO.lo)

/-- The bit positions of FIFO_STATUS that have a name. -/
def Params.fifoBits (p : Params) : List Nat :=
  [p.FS_RX_EMPTY, p.FS_RX_FULL, p.FS_TX_EMPTY, p.FS_TX_FULL, p.FS_TX_REUSE]

/-- R8, last column: what a model may assume of the record; and the two field widths of R7. -/
def Params.Valid (p : Params) : Prop :=
  p.opcodes.Nodup ∧
  (∀ b ∈ p.opcodes, b.extractLsb' 5 3 ≠ DIR_READ ∧ b.extractLsb' 5 3 ≠ DIR_WRITE) ∧
  p.addresses.Nodup ∧
  p.configBits.Nodup ∧ (∀ i ∈ p.configBits, i < 8) ∧
  p.statusBits.Nodup ∧ (∀ i ∈ p.statusBits, i < 8) ∧
  p.fifoBits.Nodup ∧ (∀ i ∈ p.fifoBits, i < 8) ∧
  fieldSpans p.ST_RX_P_NO RX_P_NO_BITS ∧ fieldSpans p.AW_FIELD AW_FIELD_BITS

/-! Free values.  Each is applied to the draw counter `State.draws`, so that two draws are never tied
together. -/

/-- R174: from power-up to the first CE activity.  The three times are named only: no rule reads them
and no step depends on them. -/
opaque T_PWR_UP_SETTLE : Nat

/-- R174: from CE high to the radio receiving or transmitting. -/
opaque T_CE_SETTLE : Nat

/-- R174: the shortest CE high that starts a transmission. -/
opaque T_CE_PULSE_MIN : Nat

/-- R20: byte `i` of a freshly allocated or lost transaction buffer, and of forgotten temporaries (log entry 7). -/
opaque freeByte : Nat → Nat → Byte

/-- R3, U20: byte `i` of an answer the environment gives where State's script names none (log entry 4). -/
opaque freeRxByte : Nat → Nat → Byte

/-- R3, R9: the error of an unscripted exchange, if it fails; of any type of errors, of which nothing is
assumed, not even that it has an element (log entry 4). -/
opaque freeExchangeError : (E : Type) → Nat → Option E

/-- R3, U9: whether an unscripted line write succeeds (log entry 4). -/
opaque freeLineOk : Nat → Bool

/-- R32, U24: `mode` after a failed construction (log entry 6). -/
opaque freeMode : Nat → Mode

/-- R32, U24: `cfg` after a failed construction (log entry 6). -/
opaque freeCfg : Nat → Byte

/-- R32: a length, for the forgotten working registers (log entry 7). -/
opaque freeLength : Nat → Nat

end Config

end Sys2Proof
end

