-- ==== Sys2Proof/Syntax.lean ====
section
/-! DEFINITION. The syntax: wire commands (R36), mutators (R99), batch elements (R152), and `Instr`,
one constructor for each row of spec/opcode_table.json.  The batch of `construct` is empty where none is
given (R9). -/

namespace Sys2Proof

/-- R36: a command value.  `a` is an address, `w` a width in bytes, `v` a register value, `n` a payload
length, `d` payload data. -/
inductive Command where
  | readRegister (a : RegAddr) (w : Nat)
  | writeRegister (a : RegAddr) (w : Nat) (v : List Byte)
  | readRxPayload (n : Nat)
  | readRxPayloadWidth
  | writeTxPayload (d : List Byte)
  | flushTx
  | flushRx
  | activate
deriving DecidableEq, Repr

/-- R99: a mutator's own result, of the type `R` the caller chooses; the block hands it on unread
(log entry 9). -/
inductive MutResult where
  | unit
  | nat (n : Nat)
  | byte (b : Byte)
  | bytes (v : List Byte)
deriving DecidableEq, Repr

/-- One edit of a register value: a field setter of R74 on byte `i`, a whole new value, or a bitwise
operation with a constant (R83). -/
inductive Edit where
  | setField (i : Nat) (f : Field) (x : Byte)
  | replace (v : List Byte)
  | orMask (m : List Byte)
  | andMask (m : List Byte)
  | xorMask (m : List Byte)
deriving DecidableEq, Repr

/-- What a mutator answers where no row of its table applies. -/
inductive ResultSel where
  | const (r : MutResult)
  | oldByte (i : Nat)
  | oldBytes
deriving DecidableEq, Repr

/-- One row of a mutator's table: the input it is for, the new value and the result. -/
structure MutRow where
  input  : List Byte
  output : List Byte
  result : MutResult
deriving DecidableEq, Repr

/-- R99: a mutator, a total pure function on the values of one register, as plain data: a table of rows
and, for every other input, a list of edits and a choice of result.  Every function of R99 is the
meaning of some mutator (log entry 9). -/
structure Mutator where
  rows   : List MutRow
  edits  : List Edit
  result : ResultSel
deriving DecidableEq, Repr

/-- R152: an element of the configuration batch of `construct`. -/
inductive BatchOp where
  | writeRegister (a : RegAddr) (w : Nat) (v : List Byte)
  | updateRegister (a : RegAddr) (w : Nat) (f : Mutator)
  | updateConfig (f : Mutator)
  | sendCommand (c : Command)
deriving DecidableEq, Repr

/-- The instructions: the 8 wire commands of R62 (`wire…`) and the 17 host operations of R69. -/
inductive Instr where
  | wireReadRegister (a : RegAddr) (w : Nat)
  | wireWriteRegister (a : RegAddr) (w : Nat) (v : List Byte)
  | wireReadRxPayload (n : Nat)
  | wireReadRxPayloadWidth
  | wireWriteTxPayload (d : List Byte)
  | wireFlushTx
  | wireFlushRx
  | wireActivate
  | construct (batch : List BatchOp := [])
  | ceEnable
  | ceDisable
  | sendCommand (c : Command)
  | writeRegister (a : RegAddr) (w : Nat) (v : List Byte)
  | readRegister (a : RegAddr) (w : Nat)
  | updateRegister (a : RegAddr) (w : Nat) (f : Mutator)
  | updateConfig (f : Mutator)
  | isConnected
  | enterRx
  | enterTx
  | send (packet : List Byte)
  | waitTxReady
  | waitTxEmpty
  | waitRxReady
  | read
  | clearInterrupts
deriving DecidableEq, Repr

/-- The two encoding spaces of spec/opcode_table.json: frames whose byte 0 is a wire opcode (R62), and
operation-select codes (R69). -/
inductive Space where
  | wire
  | op
deriving DecidableEq, Repr

/-- One request at the host port, in bits: its space and its bytes (log entry 2). -/
structure Request where
  space : Space
  bytes : List Byte
deriving DecidableEq, Repr

end Sys2Proof
end

