-- ==== Sys2Proof/WellFormed.lean ====
section
/-! DEFINITION. Which terms of the syntax the spec admits (R36, R54, R76, R99; D40). -/

namespace Sys2Proof

/-- R7, R38: a register width is 1 to 5 bytes. -/
def widthOk (w : Nat) : Bool := decide (Config.REG_WIDTH_MIN ≤ w) && decide (w ≤ Config.REG_WIDTH_MAX)

/-- R36: widths are in range and a register value has its register's width.  Payload lengths above 32
are representable at the host port (R96 says what they do). -/
def Command.wf : Command → Bool
  | .readRegister _ w => widthOk w
  | .writeRegister _ w v => widthOk w && decide (v.length = w)
  | .readRxPayload _ => true
  | .readRxPayloadWidth => true
  | .writeTxPayload _ => true
  | .flushTx => true
  | .flushRx => true
  | .activate => true

/-- R54, R66: the commands that have a frame. -/
def Command.wfWire : Command → Bool
  | .readRegister a w => Command.wf (.readRegister a w)
  | .writeRegister a w v => Command.wf (.writeRegister a w v)
  | .readRxPayload n => decide (n ≤ Config.MAX_PAYLOAD)
  | .readRxPayloadWidth => true
  | .writeTxPayload d => decide (d.length ≤ Config.MAX_PAYLOAD)
  | .flushTx => true
  | .flushRx => true
  | .activate => true

/-- R73: a field lies inside a byte. -/
def Field.wf (f : Field) : Bool := decide (f.lo ≤ f.hi) && decide (f.hi ≤ 7)

/-- R76: a field value has no bit beyond the field's width; a constant operand has the register's
width. -/
def Edit.wf (w : Nat) : Edit → Bool
  | .setField i f x => decide (i < w) && f.wf && decide (x.toNat < 2 ^ (f.hi - f.lo + 1))
  | .replace v => decide (v.length = w)
  | .orMask m => decide (m.length = w)
  | .andMask m => decide (m.length = w)
  | .xorMask m => decide (m.length = w)

/-- A row answers a value of the register's width. -/
def MutRow.wf (w : Nat) (r : MutRow) : Bool := decide (r.output.length = w)

/-- A result selector names a byte the register has. -/
def ResultSel.wf (w : Nat) : ResultSel → Bool
  | .const _ => true
  | .oldByte i => decide (i < w)
  | .oldBytes => true

/-- R99: the mutator maps `w` bytes to `w` bytes. -/
def Mutator.wf (w : Nat) (f : Mutator) : Bool :=
  f.rows.all (MutRow.wf w) && f.edits.all (Edit.wf w) && f.result.wf w

/-- R152: a batch element is a well-formed operation. -/
def BatchOp.wf : BatchOp → Bool
  | .writeRegister _ w v => widthOk w && decide (v.length = w)
  | .updateRegister _ w f => widthOk w && f.wf w
  | .updateConfig f => f.wf 1
  | .sendCommand c => c.wf

/-- The instructions the spec admits. -/
def Instr.wf : Instr → Bool
  | .wireReadRegister a w => Command.wfWire (.readRegister a w)
  | .wireWriteRegister a w v => Command.wfWire (.writeRegister a w v)
  | .wireReadRxPayload n => Command.wfWire (.readRxPayload n)
  | .wireReadRxPayloadWidth => true
  | .wireWriteTxPayload d => Command.wfWire (.writeTxPayload d)
  | .wireFlushTx => true
  | .wireFlushRx => true
  | .wireActivate => true
  | .construct batch => batch.all BatchOp.wf
  | .ceEnable => true
  | .ceDisable => true
  | .sendCommand c => c.wf
  | .writeRegister _ w v => widthOk w && decide (v.length = w)
  | .readRegister _ w => widthOk w
  | .updateRegister _ w f => widthOk w && f.wf w
  | .updateConfig f => f.wf 1
  | .isConnected => true
  | .enterRx => true
  | .enterTx => true
  | .send _ => true
  | .waitTxReady => true
  | .waitTxEmpty => true
  | .waitRxReady => true
  | .read => true
  | .clearInterrupts => true

end Sys2Proof
end

