-- ==== Sys2Proof/Decode.lean ====
section
/-! DEFINITION. Bits to instructions and back.  Frames follow R54 to R63.  The host port has no binary
form in the source; R69 gives each operation a select code, and the layout of the operands after it is
the model's own (log entry 2).  Everything that depends on a parameter of R8 takes the record `p`. -/

namespace Sys2Proof

/-! ## Wire frames -/

/-- R55: byte 0 of a register command, the direction in bits 7:5 and the address in bits 4:0. -/
def opcodeByte (dir : BitVec 3) (a : RegAddr) : Byte := (dir.setWidth 8 <<< 5) ||| a.setWidth 8

/-- R55: the address field of byte 0. -/
def addrOf (b : Byte) : RegAddr := b.extractLsb' 0 5

/-- R55: the direction field of byte 0. -/
def dirOf (b : Byte) : BitVec 3 := b.extractLsb' 5 3

/-- The eight rows of R62. -/
inductive CommandKind where
  | readRegister
  | writeRegister
  | readRxPayload
  | readRxPayloadWidth
  | writeTxPayload
  | flushTx
  | flushRx
  | activate
deriving DecidableEq, Repr

/-- R62: the command that byte 0 spells, if any. -/
def kindOf (p : Config.Params) (b : Byte) : Option CommandKind :=
  if dirOf b = Config.DIR_READ then some .readRegister
  else if dirOf b = Config.DIR_WRITE then some .writeRegister
  else if b = p.OP_R_RX_PAYLOAD then some .readRxPayload
  else if b = p.OP_R_RX_PL_WID then some .readRxPayloadWidth
  else if b = p.OP_W_TX_PAYLOAD then some .writeTxPayload
  else if b = p.OP_FLUSH_TX then some .flushTx
  else if b = p.OP_FLUSH_RX then some .flushRx
  else if b = p.OP_ACTIVATE then some .activate
  else none

/-- R54, R85: `Len(c)`, the length of a command's frame. -/
def frameLen : Command → Nat
  | .readRegister _ w => 1 + w
  | .writeRegister _ w _ => 1 + w
  | .readRxPayload n => 1 + n
  | .readRxPayloadWidth => 2
  | .writeTxPayload d => 1 + d.length
  | .flushTx => 1
  | .flushRx => 1
  | .activate => 2

/-- R87 to R94: `Encode(c)`, a command's frame. -/
def encodeFrame (p : Config.Params) : Command → List Byte
  | .readRegister a w => opcodeByte Config.DIR_READ a :: List.replicate w Config.DUMMY_BYTE
  | .writeRegister a _ v => opcodeByte Config.DIR_WRITE a :: v
  | .readRxPayload n => p.OP_R_RX_PAYLOAD :: List.replicate n Config.DUMMY_BYTE
  | .readRxPayloadWidth => [p.OP_R_RX_PL_WID, Config.DUMMY_BYTE]
  | .writeTxPayload d => p.OP_W_TX_PAYLOAD :: d
  | .flushTx => [p.OP_FLUSH_TX]
  | .flushRx => [p.OP_FLUSH_RX]
  | .activate => [p.OP_ACTIVATE, p.ACTIVATE_KEY]

/-- R63: the command a captured frame spells: byte 0 decides the command, the frame's length decides
its width or payload length.  The bytes R63 does not test are not tested. -/
def decodeFrame (p : Config.Params) : List Byte → Option Command
  | [] => none
  | b :: data =>
    match kindOf p b with
    | none => none
    | some .readRegister => if widthOk data.length then some (.readRegister (addrOf b) data.length) else none
    | some .writeRegister => if widthOk data.length then some (.writeRegister (addrOf b) data.length data) else none
    | some .readRxPayload => if data.length ≤ Config.MAX_PAYLOAD then some (.readRxPayload data.length) else none
    | some .readRxPayloadWidth => if data.length = 1 then some .readRxPayloadWidth else none
    | some .writeTxPayload => if data.length ≤ Config.MAX_PAYLOAD then some (.writeTxPayload data) else none
    | some .flushTx => if data.length = 0 then some .flushTx else none
    | some .flushRx => if data.length = 0 then some .flushRx else none
    | some .activate => if data.length = 1 then some .activate else none

/-! ## Operands at the host port: numbers, byte arrays, commands, mutators

A reader takes bytes from the front and answers what it read and the rest. -/

/-- One byte. -/
def getByte : List Byte → Option (Byte × List Byte)
  | [] => none
  | b :: r => some (b, r)

/-- A number in base 128, least digit first; a byte of 128 or more says that another digit follows.
`fuel` bounds the digits, and `n` itself is enough of it. -/
def putNatFuel : Nat → Nat → List Byte
  | 0, n => [BitVec.ofNat 8 (n % 128)]
  | fuel + 1, n =>
    if n < 128 then [BitVec.ofNat 8 n] else BitVec.ofNat 8 (128 + n % 128) :: putNatFuel fuel (n / 128)

/-- A number of any size. -/
def putNat (n : Nat) : List Byte := putNatFuel n n

/-- Reads what `putNat` wrote. -/
def getNat : List Byte → Option (Nat × List Byte)
  | [] => none
  | b :: r =>
    if b.toNat < 128 then some (b.toNat, r)
    else
      match getNat r with
      | none => none
      | some (m, r') => some (b.toNat - 128 + 128 * m, r')

/-- Exactly `n` bytes. -/
def getRaw (n : Nat) (bs : List Byte) : Option (List Byte × List Byte) :=
  if bs.length < n then none else some (bs.take n, bs.drop n)

/-- A byte array behind its length. -/
def putBytes (v : List Byte) : List Byte := putNat v.length ++ v

/-- Reads what `putBytes` wrote. -/
def getBytes (bs : List Byte) : Option (List Byte × List Byte) :=
  (getNat bs).bind fun (n, r) => getRaw n r

/-- `n` items, one behind another. -/
def getMany {α : Type} (get : List Byte → Option (α × List Byte)) : Nat → List Byte → Option (List α × List Byte)
  | 0, bs => some ([], bs)
  | n + 1, bs => (get bs).bind fun (x, r) => (getMany get n r).bind fun (xs, r') => some (x :: xs, r')

/-- A list behind its length. -/
def putList {α : Type} (put : α → List Byte) (xs : List α) : List Byte := putNat xs.length ++ xs.flatMap put

/-- Reads what `putList` wrote. -/
def getList {α : Type} (get : List Byte → Option (α × List Byte)) (bs : List Byte) : Option (List α × List Byte) :=
  (getNat bs).bind fun (n, r) => getMany get n r

/-- A register address, one byte with bits 7:5 clear. -/
def putAddr (a : RegAddr) : List Byte := [a.setWidth 8]

/-- Reads what `putAddr` wrote. -/
def getAddr (bs : List Byte) : Option (RegAddr × List Byte) :=
  (getByte bs).bind fun (b, r) => if b.toNat < 32 then some (b.setWidth 5, r) else none

/-- A register width, one less than it is, so that 0 stands for one byte. -/
def putWidth (w : Nat) : List Byte := putNat (w - 1)

/-- Reads what `putWidth` wrote. -/
def getWidth (bs : List Byte) : Option (Nat × List Byte) :=
  (getNat bs).bind fun (n, r) => some (n + 1, r)

/-- A command: its frame's byte 0, then its operands. -/
def putCommand (p : Config.Params) : Command → List Byte
  | .readRegister a w => opcodeByte Config.DIR_READ a :: putWidth w
  | .writeRegister a w v => opcodeByte Config.DIR_WRITE a :: (putWidth w ++ v)
  | .readRxPayload n => p.OP_R_RX_PAYLOAD :: putNat n
  | .readRxPayloadWidth => [p.OP_R_RX_PL_WID]
  | .writeTxPayload d => p.OP_W_TX_PAYLOAD :: putBytes d
  | .flushTx => [p.OP_FLUSH_TX]
  | .flushRx => [p.OP_FLUSH_RX]
  | .activate => [p.OP_ACTIVATE]

/-- Reads what `putCommand` wrote. -/
def getCommand (p : Config.Params) (bs : List Byte) : Option (Command × List Byte) :=
  (getByte bs).bind fun (b, r) =>
    match kindOf p b with
    | none => none
    | some .readRegister => (getWidth r).bind fun (w, r') => some (.readRegister (addrOf b) w, r')
    | some .writeRegister =>
      (getWidth r).bind fun (w, r') => (getRaw w r').bind fun (v, r'') => some (.writeRegister (addrOf b) w v, r'')
    | some .readRxPayload => (getNat r).bind fun (n, r') => some (.readRxPayload n, r')
    | some .readRxPayloadWidth => some (.readRxPayloadWidth, r)
    | some .writeTxPayload => (getBytes r).bind fun (d, r') => some (.writeTxPayload d, r')
    | some .flushTx => some (.flushTx, r)
    | some .flushRx => some (.flushRx, r)
    | some .activate => some (.activate, r)

/-- A mutator's result: a tag and its content. -/
def putResult : MutResult → List Byte
  | .unit => [0#8]
  | .nat n => 1#8 :: putNat n
  | .byte b => [2#8, b]
  | .bytes v => 3#8 :: putBytes v

/-- Reads what `putResult` wrote. -/
def getResult (bs : List Byte) : Option (MutResult × List Byte) :=
  (getByte bs).bind fun (t, r) =>
    match t.toNat with
    | 0 => some (.unit, r)
    | 1 => (getNat r).bind fun (n, r') => some (.nat n, r')
    | 2 => (getByte r).bind fun (b, r') => some (.byte b, r')
    | 3 => (getBytes r).bind fun (v, r') => some (.bytes v, r')
    | _ => none

/-- An edit: a tag and its operands. -/
def putEdit : Edit → List Byte
  | .setField i f x => 0#8 :: (putNat i ++ putNat f.hi ++ putNat f.lo ++ [x])
  | .replace v => 1#8 :: putBytes v
  | .orMask m => 2#8 :: putBytes m
  | .andMask m => 3#8 :: putBytes m
  | .xorMask m => 4#8 :: putBytes m

/-- Reads what `putEdit` wrote. -/
def getEdit (bs : List Byte) : Option (Edit × List Byte) :=
  (getByte bs).bind fun (t, r) =>
    match t.toNat with
    | 0 =>
      (getNat r).bind fun (i, r1) => (getNat r1).bind fun (hi, r2) => (getNat r2).bind fun (lo, r3) =>
        (getByte r3).bind fun (x, r4) => some (.setField i ⟨hi, lo⟩ x, r4)
    | 1 => (getBytes r).bind fun (v, r') => some (.replace v, r')
    | 2 => (getBytes r).bind fun (v, r') => some (.orMask v, r')
    | 3 => (getBytes r).bind fun (v, r') => some (.andMask v, r')
    | 4 => (getBytes r).bind fun (v, r') => some (.xorMask v, r')
    | _ => none

/-- A result selector: a tag and its operand. -/
def putSel : ResultSel → List Byte
  | .const r => 0#8 :: putResult r
  | .oldByte i => 1#8 :: putNat i
  | .oldBytes => [2#8]

/-- Reads what `putSel` wrote. -/
def getSel (bs : List Byte) : Option (ResultSel × List Byte) :=
  (getByte bs).bind fun (t, r) =>
    match t.toNat with
    | 0 => (getResult r).bind fun (x, r') => some (.const x, r')
    | 1 => (getNat r).bind fun (i, r') => some (.oldByte i, r')
    | 2 => some (.oldBytes, r)
    | _ => none

/-- A table row. -/
def putRow (x : MutRow) : List Byte := putBytes x.input ++ putBytes x.output ++ putResult x.result

/-- Reads what `putRow` wrote. -/
def getRow (bs : List Byte) : Option (MutRow × List Byte) :=
  (getBytes bs).bind fun (i, r1) => (getBytes r1).bind fun (o, r2) => (getResult r2).bind fun (x, r3) =>
    some (⟨i, o, x⟩, r3)

/-- A mutator: its table, its edits, its result selector. -/
def putMutator (f : Mutator) : List Byte := putList putRow f.rows ++ putList putEdit f.edits ++ putSel f.result

/-- Reads what `putMutator` wrote. -/
def getMutator (bs : List Byte) : Option (Mutator × List Byte) :=
  (getList getRow bs).bind fun (rows, r1) => (getList getEdit r1).bind fun (edits, r2) =>
    (getSel r2).bind fun (sel, r3) => some (⟨rows, edits, sel⟩, r3)

/-- A register value behind its address and width. -/
def putRegValue (a : RegAddr) (w : Nat) (v : List Byte) : List Byte := putAddr a ++ putWidth w ++ v

/-- Reads what `putRegValue` wrote. -/
def getRegValue (bs : List Byte) : Option ((RegAddr × Nat × List Byte) × List Byte) :=
  (getAddr bs).bind fun (a, r1) => (getWidth r1).bind fun (w, r2) => (getRaw w r2).bind fun (v, r3) =>
    some ((a, w, v), r3)

/-- A batch element: a tag (its operation's select code in R69) and its operands. -/
def putBatchOp (p : Config.Params) : BatchOp → List Byte
  | .sendCommand c => 3#8 :: putCommand p c
  | .writeRegister a w v => 4#8 :: putRegValue a w v
  | .updateRegister a w f => 6#8 :: (putAddr a ++ putWidth w ++ putMutator f)
  | .updateConfig f => 7#8 :: putMutator f

/-- Reads what `putBatchOp` wrote. -/
def getBatchOp (p : Config.Params) (bs : List Byte) : Option (BatchOp × List Byte) :=
  (getByte bs).bind fun (t, r) =>
    match t.toNat with
    | 3 => (getCommand p r).bind fun (c, r') => some (.sendCommand c, r')
    | 4 => (getRegValue r).bind fun ((a, w, v), r') => some (.writeRegister a w v, r')
    | 6 =>
      (getAddr r).bind fun (a, r1) => (getWidth r1).bind fun (w, r2) => (getMutator r2).bind fun (f, r3) =>
        some (.updateRegister a w f, r3)
    | 7 => (getMutator r).bind fun (f, r') => some (.updateConfig f, r')
    | _ => none

/-- R9, R152: the batch of `construct`.  No byte at all is the batch's default, the empty one. -/
def getBatch (p : Config.Params) : List Byte → Option (List BatchOp × List Byte)
  | [] => some ([], [])
  | b :: bs => getList (getBatchOp p) (b :: bs)

/-! ## Requests -/

/-- Why a request spells no instruction. -/
inductive DecodeError where
  /-- R69, R136: an operation-select code above 16. -/
  | unknownOperation
  /-- The bytes after a known select code are no operands of that operation (not representable, U6). -/
  | malformedOperands
  /-- R63: a frame a frame decoder must reject. -/
  | rejectedFrame
deriving DecidableEq, Repr

/-- R69: the select code of a host operation.  Wire commands have none. -/
def selOf : Instr → Option (BitVec 5)
  | .construct _ => some 0#5
  | .ceEnable => some 1#5
  | .ceDisable => some 2#5
  | .sendCommand _ => some 3#5
  | .writeRegister _ _ _ => some 4#5
  | .readRegister _ _ => some 5#5
  | .updateRegister _ _ _ => some 6#5
  | .updateConfig _ => some 7#5
  | .isConnected => some 8#5
  | .enterRx => some 9#5
  | .enterTx => some 10#5
  | .send _ => some 11#5
  | .waitTxReady => some 12#5
  | .waitTxEmpty => some 13#5
  | .waitRxReady => some 14#5
  | .read => some 15#5
  | .clearInterrupts => some 16#5
  | .wireReadRegister _ _ => none
  | .wireWriteRegister _ _ _ => none
  | .wireReadRxPayload _ => none
  | .wireReadRxPayloadWidth => none
  | .wireWriteTxPayload _ => none
  | .wireFlushTx => none
  | .wireFlushRx => none
  | .wireActivate => none

/-- R62: the instruction that is a wire command of its own. -/
def Instr.ofCommand : Command → Instr
  | .readRegister a w => .wireReadRegister a w
  | .writeRegister a w v => .wireWriteRegister a w v
  | .readRxPayload n => .wireReadRxPayload n
  | .readRxPayloadWidth => .wireReadRxPayloadWidth
  | .writeTxPayload d => .wireWriteTxPayload d
  | .flushTx => .wireFlushTx
  | .flushRx => .wireFlushRx
  | .activate => .wireActivate

/-- The operands of the operation with select code `sel`, as many bytes as they take. -/
def getOperands (p : Config.Params) (sel : Nat) (bs : List Byte) : Option (Instr × List Byte) :=
  match sel with
  | 0 => (getBatch p bs).bind fun (batch, r) => some (.construct batch, r)
  | 1 => some (.ceEnable, bs)
  | 2 => some (.ceDisable, bs)
  | 3 => (getCommand p bs).bind fun (c, r) => some (.sendCommand c, r)
  | 4 => (getRegValue bs).bind fun ((a, w, v), r) => some (.writeRegister a w v, r)
  | 5 => (getAddr bs).bind fun (a, r1) => (getWidth r1).bind fun (w, r2) => some (.readRegister a w, r2)
  | 6 =>
    (getAddr bs).bind fun (a, r1) => (getWidth r1).bind fun (w, r2) => (getMutator r2).bind fun (f, r3) =>
      some (.updateRegister a w f, r3)
  | 7 => (getMutator bs).bind fun (f, r) => some (.updateConfig f, r)
  | 8 => some (.isConnected, bs)
  | 9 => some (.enterRx, bs)
  | 10 => some (.enterTx, bs)
  | 11 => (getBytes bs).bind fun (d, r) => some (.send d, r)
  | 12 => some (.waitTxReady, bs)
  | 13 => some (.waitTxEmpty, bs)
  | 14 => some (.waitRxReady, bs)
  | 15 => some (.read, bs)
  | 16 => some (.clearInterrupts, bs)
  | _ => none

/-- R69: the largest assigned select code. -/
def LAST_SEL : Nat := 16

/-- A request of the operation space: byte 0 is the select code, and the operands take every byte
after it. -/
def decodeOp (p : Config.Params) : List Byte → Except DecodeError Instr
  | [] => .error .malformedOperands
  | b :: operands =>
    if b.toNat > LAST_SEL then .error .unknownOperation
    else
      match getOperands p b.toNat operands with
      | some (i, []) => if i.wf then .ok i else .error .malformedOperands
      | _ => .error .malformedOperands

/-- A request of the wire space: the whole of it is one frame. -/
def decodeWire (p : Config.Params) (frame : List Byte) : Except DecodeError Instr :=
  match decodeFrame p frame with
  | some c => .ok (.ofCommand c)
  | none => .error .rejectedFrame

/-- The instruction a request spells. -/
def decode (p : Config.Params) (r : Request) : Except DecodeError Instr :=
  match r.space with
  | .wire => decodeWire p r.bytes
  | .op => decodeOp p r.bytes

/-- The operands of an instruction, behind its select code. -/
def putOperands (p : Config.Params) : Instr → List Byte
  | .construct batch => putList (putBatchOp p) batch
  | .ceEnable => []
  | .ceDisable => []
  | .sendCommand c => putCommand p c
  | .writeRegister a w v => putRegValue a w v
  | .readRegister a w => putAddr a ++ putWidth w
  | .updateRegister a w f => putAddr a ++ putWidth w ++ putMutator f
  | .updateConfig f => putMutator f
  | .isConnected => []
  | .enterRx => []
  | .enterTx => []
  | .send d => putBytes d
  | .waitTxReady => []
  | .waitTxEmpty => []
  | .waitRxReady => []
  | .read => []
  | .clearInterrupts => []
  | .wireReadRegister a w => encodeFrame p (.readRegister a w)
  | .wireWriteRegister a w v => encodeFrame p (.writeRegister a w v)
  | .wireReadRxPayload n => encodeFrame p (.readRxPayload n)
  | .wireReadRxPayloadWidth => encodeFrame p .readRxPayloadWidth
  | .wireWriteTxPayload d => encodeFrame p (.writeTxPayload d)
  | .wireFlushTx => encodeFrame p .flushTx
  | .wireFlushRx => encodeFrame p .flushRx
  | .wireActivate => encodeFrame p .activate

/-- The request that spells a well-formed instruction. -/
def encode (p : Config.Params) (i : Instr) : Request :=
  match selOf i with
  | some sel => ⟨.op, sel.setWidth 8 :: putOperands p i⟩
  | none => ⟨.wire, putOperands p i⟩

/-! ## The table's words -/

/-- The bytes of a table word of `nbits` bits, bits 7:0 first. -/
def tableBytes (nbits w : Nat) : List Byte :=
  (List.range ((nbits + 7) / 8)).map fun k => BitVec.ofNat 8 (w >>> (8 * k))

/-- Whether a request decodes. -/
def decodes (p : Config.Params) (r : Request) : Bool :=
  match decode p r with
  | .ok _ => true
  | .error _ => false

/-- The requests a table word may stand for: the word's bytes and up to 7 operand bytes of zeros, as a
host operation first and as a frame after that (the two spaces of the table overlap, log entry 2). -/
def tableCandidates (nbits w : Nat) : List Request :=
  ([Space.op, Space.wire].flatMap fun sp =>
    (List.range 8).map fun k => ⟨sp, tableBytes nbits w ++ List.replicate k 0#8⟩)

/-- The request of a table word. -/
def tableRequest (p : Config.Params) (nbits w : Nat) : Request :=
  ((tableCandidates nbits w).find? (decodes p)).getD ⟨.op, tableBytes nbits w⟩

/-- What the decoder reads from a table word, with the default parameters (log entry 1). -/
def decodeTableWord (nbits w : Nat) : Option Instr :=
  match decode Config.defaults (tableRequest Config.defaults nbits w) with
  | .ok i => some i
  | .error _ => none

end Sys2Proof
end

