-- ==== Sys2Proof/Machine/State.lean ====
section
/-! DEFINITION. The state of the block (10_state.md; log entries 10, 11), its observation (00_scope.md R13), the host's
requests, the environment's answers, and the state at reset.  The type `E` of transport errors is a type
argument throughout (R9, D31), of which nothing is assumed; where none is given it is `TransportError`. -/

namespace Sys2Proof.Machine

/-- R3, D31: what the environment answers to an exchange.  A scripted `ok` is fitted to the frame's
length when it is used (log entry 4). -/
inductive Answer (E : Type := TransportError) where
  | ok (rx : List Byte)
  | err (e : E)
deriving DecidableEq, Repr

/-- R13: an event of the trace. -/
inductive Event (E : Type := TransportError) where
  | pinWrite (line : Line) (level : Bool)
  | exchange (tx : List Byte) (answer : Answer E)
deriving DecidableEq, Repr

/-- R133: the reasons of the outcome `Fault(r)`. -/
inductive FaultReason where
  /-- R96, R114, R118: a payload of more than 32 bytes. -/
  | payloadTooLong
  /-- R103: `update_register` on CONFIG. -/
  | configViaUpdateRegister
  /-- R135: a line write failed. -/
  | lineWriteFailed (line : Line)
deriving DecidableEq, Repr

/-- R133: the reasons of the outcome `Refused(r)`. -/
inductive RefusalReason where
  /-- R136: the block is not live, or has faulted. -/
  | notLive
  /-- R136: an unassigned operation-select code. -/
  | unknownOperation
deriving DecidableEq, Repr

/-- R85: a command's typed result. -/
inductive Response where
  | unit
  | register (v : List Byte)
  | payload (p : List Byte)
  | width (b : Byte)
deriving DecidableEq, Repr

/-- R69, third column: the results of the operations. -/
inductive Value where
  | unit
  | command (status : Byte) (response : Response)
  | status (status : Byte)
  | register (status : Byte) (v : List Byte)
  | mutator (r : MutResult)
  | bool (b : Bool)
  | pipe (p : BitVec 3)
  | payload (p : List Byte)
deriving DecidableEq, Repr

/-- R12: the outcome of an operation, as the host is told it. -/
inductive OpOutcome (E : Type := TransportError) where
  | ok (v : Value)
  | wouldBlock
  | transportFailure (e : E)
  | notConnected
  | fault (r : FaultReason)
  | refused (r : RefusalReason)
deriving DecidableEq, Repr

/-- The reasons for which the machine itself stops with a fault: none.  Every outcome of R12, `Fault(r)`
among them, leaves a block that goes on (R134, R147) and is a next state; nothing else can stop it, so
the type is empty (log entry 14).  Safe: there is nothing to raise. -/
inductive Fault : Type
deriving DecidableEq, Repr

/-- The reasons for which the machine gives a request no meaning. -/
inductive Refusal where
  /-- An instruction whose meaning is not written; raised by `exec`'s arm alone.  Safe. -/
  | notModelled (mnemonic : String)
  /-- Raised by `step` for operand bytes that are no operands of the selected operation: the spec calls
  them not representable (U6, D40).  Safe. -/
  | malformedRequest
  /-- Raised by `step` for a frame that R63 says a frame decoder must reject.  Safe. -/
  | rejectedFrame
deriving DecidableEq, Repr

/-- The block with its parameters, its observation and its inputs. -/
@[ext]
structure State (E : Type := TransportError) where
  /-- R8: the parameters this block is built with; nothing writes them. -/
  params : Config.Params
  /-- R14: the operating mode. -/
  mode : Mode
  /-- R15: the cached copy of the chip's CONFIG register. -/
  cfg : Byte
  /-- R16: the level last written to CE. -/
  ce : Bool
  /-- R17: the level last written to CSN. -/
  csn : Bool
  /-- R18: the block has been constructed successfully. -/
  live : Bool
  /-- R19: sticky, an operation has ended with `Fault(r)`. -/
  fault : Bool
  /-- R20, R40: the transaction buffer, bytes 0 to 32. -/
  buf : List Byte
  /-- R20: how many bytes of the buffer are the transaction's. -/
  len : Nat
  /-- R21: the sequencer's temporary `old`. -/
  old : List Byte
  /-- R21: the sequencer's temporary `new`. -/
  new : List Byte
  /-- R13: the events performed, oldest first (log entry 12). -/
  trace : List (Event E)
  /-- R13: the outcomes answered to the host, oldest first (log entry 12). -/
  outcomes : List (OpOutcome E)
  /-- R4 (a): the requests the host is going to make, the next one first (log entry 5). -/
  requests : List Request
  /-- R3: what the environment is going to answer to exchanges, the next one first (log entry 4). -/
  exchAnswers : List (Answer E)
  /-- R3: whether the coming line writes succeed, the next one first (log entry 4). -/
  lineAnswers : List Bool
  /-- The model's own: how many free values have been drawn (log entry 4). -/
  draws : Nat
deriving DecidableEq, Repr

/-- R153: the initial value of `cfg`. -/
def initialCfg (p : Config.Params) : Byte :=
  p.CONFIG_RESET &&&
    ~~~((1#8 <<< p.CFG_MASK_RX_DR) ||| (1#8 <<< p.CFG_MASK_TX_DS) ||| (1#8 <<< p.CFG_MASK_MAX_RT))

/-- A block with parameters `p` before any `construct` (R151): not live, not faulted, nothing done.
`mode`, `cfg`, `ce` and `csn`, unspecified there, have the reset values of R14 to R17; the working
registers have values of the model's own (log entries 6 and 7). -/
def State.resetWith {E : Type} (p : Config.Params) : State E where
  params := p
  mode := .standby
  cfg := initialCfg p
  ce := false
  csn := true
  live := false
  fault := false
  buf := List.replicate Config.BUF_LEN Config.DUMMY_BYTE
  len := 1
  old := [0#8]
  new := [0#8]
  trace := []
  outcomes := []
  requests := []
  exchAnswers := []
  lineAnswers := []
  draws := 0

/-- The block with R8's default parameters before any `construct` (log entry 1). -/
def State.reset : State := State.resetWith Config.defaults

end Sys2Proof.Machine
end

