-- ==== Sys2Proof/Machine/Operands.lean ====
section
/-! DEFINITION. Operand forms: field access on bytes (40_register_model.md R73, R74), the values of
mutators (R99), the codec's view of responses (41_codec_commands.md R85, R86). -/

namespace Sys2Proof.Machine

/-- R73: the mask of a field's width, at bit 0. -/
def fieldMask (hi lo : Nat) : Byte := (1#8 <<< (hi - lo + 1)) - 1#8

/-- R73: field read. -/
def get (b : Byte) (hi lo : Nat) : Byte := (b >>> lo) &&& fieldMask hi lo

/-- R74: field write. -/
def set (b : Byte) (hi lo : Nat) (x : Byte) : Byte :=
  (b &&& ~~~(fieldMask hi lo <<< lo)) ||| ((x <<< lo) &&& (fieldMask hi lo <<< lo))

/-- R73: a one-bit field read as a boolean, 1 true. -/
def getBit (b : Byte) (i : Nat) : Bool := get b i i == 1#8

/-- R74 on a one-bit field. -/
def setBit (b : Byte) (i : Nat) (x : Bool) : Byte := set b i i (if x then 1#8 else 0#8)

/-- The value of an edit at a register value. -/
def applyEdit (v : List Byte) : Edit → List Byte
  | .setField i f x => v.modify i fun b => set b f.hi f.lo x
  | .replace v' => v'
  | .orMask m => List.zipWith (· ||| ·) v m
  | .andMask m => List.zipWith (· &&& ·) v m
  | .xorMask m => List.zipWith (· ^^^ ·) v m

/-- The result a selector picks from the register value the mutator is given. -/
def pickResult (v : List Byte) : ResultSel → MutResult
  | .const r => r
  | .oldByte i => .byte (v.getD i 0#8)
  | .oldBytes => .bytes v

/-- R99: the function a mutator stands for: new value and result. -/
def evalMutator (f : Mutator) (v : List Byte) : List Byte × MutResult :=
  match f.rows.find? fun r => r.input == v with
  | some r => (r.output, r.result)
  | none => (f.edits.foldl applyEdit v, pickResult v f.result)

/-- A mutator on the one byte of CONFIG (R104; log entry 15 for one that answers no byte). -/
def evalMutatorByte (f : Mutator) (c : Byte) : Byte × MutResult :=
  ((evalMutator f [c]).1.headD c, (evalMutator f [c]).2)

/-- R86: the Status byte of a response. -/
def statusOf (rx : List Byte) : Byte := rx.headD 0#8

/-- R87 to R94: `Decode(c, rx)`, the typed result; byte 0 is not read (R85). -/
def decodeResponse (c : Command) (rx : List Byte) : Response :=
  match c with
  | .readRegister _ w => .register ((rx.drop 1).take w)
  | .writeRegister _ _ _ => .unit
  | .readRxPayload n => .payload ((rx.drop 1).take n)
  | .readRxPayloadWidth => .width (rx.getD 1 0#8)
  | .writeTxPayload _ => .unit
  | .flushTx => .unit
  | .flushRx => .unit
  | .activate => .unit

/-- The register value or payload a response carries. -/
def Response.bytes : Response → List Byte
  | .unit => []
  | .register v => v
  | .payload p => p
  | .width b => [b]

end Sys2Proof.Machine
end

