-- ==== Sys2Proof/Machine/Flags.lean ====
section
/-! DEFINITION. The field accessors of the four registers the block knows (40_register_model.md R78 to
R81) and the constants built with them.  They are the block's only flag computations (R23).  The
positions are those of the parameter record `p`. -/

namespace Sys2Proof.Machine

/-! R78: Status. -/

def rxDr (p : Config.Params) (s : Byte) : Bool := getBit s p.ST_RX_DR
def txDs (p : Config.Params) (s : Byte) : Bool := getBit s p.ST_TX_DS
def maxRt (p : Config.Params) (s : Byte) : Bool := getBit s p.ST_MAX_RT
def rxPNo (p : Config.Params) (s : Byte) : BitVec 3 := (get s p.ST_RX_P_NO.hi p.ST_RX_P_NO.lo).setWidth 3
def stTxFull (p : Config.Params) (s : Byte) : Bool := getBit s p.ST_TX_FULL
def setRxDr (p : Config.Params) (s : Byte) (x : Bool) : Byte := setBit s p.ST_RX_DR x
def setTxDs (p : Config.Params) (s : Byte) (x : Bool) : Byte := setBit s p.ST_TX_DS x
def setMaxRt (p : Config.Params) (s : Byte) (x : Bool) : Byte := setBit s p.ST_MAX_RT x

/-- R78 `ST_CLEAR_TX`: the STATUS value that clears `TX_DS` and `MAX_RT`. -/
def stClearTx (p : Config.Params) : Byte := setMaxRt p (setTxDs p 0x00#8 true) true

/-- R78 `ST_CLEAR_ALL`: the STATUS value that clears the three flags. -/
def stClearAll (p : Config.Params) : Byte := setRxDr p (stClearTx p) true

/-! R79: Config. -/

def primRx (p : Config.Params) (c : Byte) : Bool := getBit c p.CFG_PRIM_RX
def pwrUp (p : Config.Params) (c : Byte) : Bool := getBit c p.CFG_PWR_UP
def crco (p : Config.Params) (c : Byte) : Bool := getBit c p.CFG_CRCO
def enCrc (p : Config.Params) (c : Byte) : Bool := getBit c p.CFG_EN_CRC
def maskMaxRt (p : Config.Params) (c : Byte) : Bool := getBit c p.CFG_MASK_MAX_RT
def maskTxDs (p : Config.Params) (c : Byte) : Bool := getBit c p.CFG_MASK_TX_DS
def maskRxDr (p : Config.Params) (c : Byte) : Bool := getBit c p.CFG_MASK_RX_DR
def setPrimRx (p : Config.Params) (c : Byte) (x : Bool) : Byte := setBit c p.CFG_PRIM_RX x
def setPwrUp (p : Config.Params) (c : Byte) (x : Bool) : Byte := setBit c p.CFG_PWR_UP x
def setCrco (p : Config.Params) (c : Byte) (x : Bool) : Byte := setBit c p.CFG_CRCO x
def setEnCrc (p : Config.Params) (c : Byte) (x : Bool) : Byte := setBit c p.CFG_EN_CRC x
def setMaskMaxRt (p : Config.Params) (c : Byte) (x : Bool) : Byte := setBit c p.CFG_MASK_MAX_RT x
def setMaskTxDs (p : Config.Params) (c : Byte) (x : Bool) : Byte := setBit c p.CFG_MASK_TX_DS x
def setMaskRxDr (p : Config.Params) (c : Byte) (x : Bool) : Byte := setBit c p.CFG_MASK_RX_DR x

/-- R152: the value `construct` gives the cache, built with the setters. -/
def constructCfg (p : Config.Params) : Byte :=
  setMaskRxDr p (setMaskTxDs p (setMaskMaxRt p p.CONFIG_RESET false) false) false

/-! R80: SetupAw. -/

def aw (p : Config.Params) (a : Byte) : BitVec 2 := (get a p.AW_FIELD.hi p.AW_FIELD.lo).setWidth 2
def setAw (p : Config.Params) (a : Byte) (x : BitVec 2) : Byte := set a p.AW_FIELD.hi p.AW_FIELD.lo (x.setWidth 8)

/-- R105: the test of the connectivity check, on the whole SETUP_AW byte. -/
def plausibleAw (a : Byte) : Bool := decide (a.toNat ≤ Config.AW_MAX_VALID)

/-! R81: FifoStatus. -/

def rxEmpty (p : Config.Params) (f : Byte) : Bool := getBit f p.FS_RX_EMPTY
def rxFull (p : Config.Params) (f : Byte) : Bool := getBit f p.FS_RX_FULL
def txEmpty (p : Config.Params) (f : Byte) : Bool := getBit f p.FS_TX_EMPTY
def txFull (p : Config.Params) (f : Byte) : Bool := getBit f p.FS_TX_FULL
def txReuse (p : Config.Params) (f : Byte) : Bool := getBit f p.FS_TX_REUSE

end Sys2Proof.Machine
end

