-- ==== Sys2Proof/Machine/Ops.lean ====
section
/-! DEFINITION. The operations the meanings share: updates of State, the environment's answers, the
primitives `pin`, `Exchange`, `raise Fault` and `?` of R11, the transaction of R100, and the host port
(R12, R98, R136).  An operation takes the parameter record `p` of the block that performs it. -/

namespace Sys2Proof.Machine

variable {E : Type}

/-! ## Updates of State -/

def State.setMode (s : State E) (m : Mode) : State E := { s with mode := m }
def State.setCfg (s : State E) (c : Byte) : State E := { s with cfg := c }
def State.setCe (s : State E) (b : Bool) : State E := { s with ce := b }
def State.setCsn (s : State E) (b : Bool) : State E := { s with csn := b }
def State.setLive (s : State E) (b : Bool) : State E := { s with live := b }
def State.setFault (s : State E) (b : Bool) : State E := { s with fault := b }
def State.setBuf (s : State E) (bytes : List Byte) (n : Nat) : State E := { s with buf := bytes, len := n }
def State.setTemps (s : State E) (old new : List Byte) : State E := { s with old := old, new := new }
def State.record (s : State E) (e : Event E) : State E := { s with trace := s.trace ++ [e] }
def State.answer (s : State E) (o : OpOutcome E) : State E := { s with outcomes := s.outcomes ++ [o] }
def State.setRequests (s : State E) (rs : List Request) : State E := { s with requests := rs }
def State.setExchAnswers (s : State E) (xs : List (Answer E)) : State E := { s with exchAnswers := xs }
def State.setLineAnswers (s : State E) (xs : List Bool) : State E := { s with lineAnswers := xs }
def State.draw (s : State E) : State E := { s with draws := s.draws + 1 }

/-- R16, R17: the level of a line. -/
def State.setLine (s : State E) : Line → Bool → State E
  | .ce, b => s.setCe b
  | .csn, b => s.setCsn b

/-! ## Running a sequence of steps -/

/-- R12: how an operation ends early. -/
inductive Early (E : Type := TransportError) where
  | wouldBlock
  | transportFailure (e : E)
  | notConnected
  | fault (r : FaultReason)
deriving DecidableEq, Repr

/-- R12: the outcome the host is told for an early end. -/
def Early.toOutcome : Early E → OpOutcome E
  | .wouldBlock => .wouldBlock
  | .transportFailure e => .transportFailure e
  | .notConnected => .notConnected
  | .fault r => .fault r

/-- What a (nested) operation ends with: its result, or an early end; and the state it leaves. -/
inductive Res (α : Type) (E : Type := TransportError) where
  | done (a : α) (s : State E)
  | stop (e : Early E) (s : State E)

/-- R11, R12: `y <- op(...)?`.  An early end ends the enclosing operation at once with that outcome. -/
def Res.andThen {α β : Type} (r : Res α E) (f : α → State E → Res β E) : Res β E :=
  match r with
  | .done a s => f a s
  | .stop e s => .stop e s

/-- The state an operation leaves. -/
def Res.state {α : Type} : Res α E → State E
  | .done _ s => s
  | .stop _ s => s

/-- R12: the outcome an operation ends with. -/
def Res.outcome : Res Value E → OpOutcome E
  | .done v _ => .ok v
  | .stop e _ => e.toOutcome

/-- The end of an operation: its outcome is answered to the host. -/
def Res.finish (r : Res Value E) : State E := r.state.answer r.outcome

/-- R134: TAKING THE BLOCK'S EXCEPTION.  `raise Fault(r)` ends the operation at this step and sets the
sticky bit; no other state is saved or changed and there is no handler (R147).  The way back is
`construct`, the only operation that clears the bit (R156). -/
def raise {α : Type} (r : FaultReason) (s : State E) : Res α E := .stop (.fault r) (s.setFault true)

/-! ## The environment -/

/-- D31: an answer has exactly as many bytes as were sent. -/
def fit (d n : Nat) (rx : List Byte) : List Byte := (rx ++ (List.range n).map (Config.freeRxByte d)).take n

/-- R3: the environment's answer to an exchange of `n` bytes. -/
def State.nextAnswer (s : State E) (n : Nat) : Answer E × State E :=
  match s.exchAnswers with
  | .ok rx :: rest => (.ok (fit s.draws n rx), s.setExchAnswers rest)
  | .err e :: rest => (.err e, s.setExchAnswers rest)
  | [] =>
    match Config.freeExchangeError E s.draws with
    | some e => (.err e, s.draw)
    | none => (.ok (fit s.draws n []), s.draw)

/-- R3: whether the environment lets the next line write succeed. -/
def State.nextLine (s : State E) : Bool × State E :=
  match s.lineAnswers with
  | ok :: rest => (ok, s.setLineAnswers rest)
  | [] => (Config.freeLineOk s.draws, s.draw)

/-- R11, R135: `pin(line) <- b`.  The event is recorded and the state element takes the level whether
or not the write succeeds. -/
def pin (l : Line) (b : Bool) (s : State E) : Res Unit E :=
  let (ok, s1) := s.nextLine
  let s2 := (s1.setLine l b).record (.pinWrite l b)
  if ok then .done () s2 else raise (.lineWriteFailed l) s2

/-- R11: `Exchange(tx)`. -/
def exchange (tx : List Byte) (s : State E) : Answer E × State E :=
  let (r, s1) := s.nextAnswer tx.length
  (r, s1.record (.exchange tx r))

/-! ## The transaction buffer -/

/-- R20: the buffer's bytes from `i` on that no rule gives a value. -/
def freeTail (d i : Nat) : List Byte := (List.range' i (Config.BUF_LEN - i)).map (Config.freeByte d)

/-- R40: byte `i` of `BUF`. -/
def State.readBuf (s : State E) (i : Nat) : Byte := s.buf.getD i Config.DUMMY_BYTE

/-- The transaction's region, `buf[0 .. len)`. -/
def State.region (s : State E) : List Byte := s.buf.take s.len

/-- R20, R100: a fresh buffer that holds a frame. -/
def State.allocBuf (s : State E) (frame : List Byte) : State E :=
  (s.setBuf (frame ++ freeTail s.draws frame.length) frame.length).draw

/-- R20: a failed exchange leaves the buffer unspecified. -/
def State.loseBuf (s : State E) : State E := (s.setBuf (freeTail s.draws 0) s.len).draw

/-- R20: `buf[0 .. len) <- rx`. -/
def State.fillRegion (s : State E) (rx : List Byte) : State E := s.setBuf (rx ++ s.buf.drop rx.length) s.len

/-- R32: the working registers hold nothing a rule may read. -/
def State.forgetWorking (s : State E) : State E :=
  let oldLen := 1 + Config.freeLength (s.draws + 1) % Config.REG_WIDTH_MAX
  let newLen := 1 + Config.freeLength (s.draws + 2) % Config.REG_WIDTH_MAX
  ((s.setBuf (freeTail s.draws 0) (1 + Config.freeLength s.draws % Config.BUF_LEN)).setTemps
    ((List.range oldLen).map (Config.freeByte (s.draws + 1)))
    ((List.range newLen).map (Config.freeByte (s.draws + 2)))).draw.draw.draw

/-- R32, R155: `mode` and `cfg` are unspecified. -/
def State.forgetModeCfg (s : State E) : State E :=
  ((s.setMode (Config.freeMode s.draws)).setCfg (Config.freeCfg s.draws)).draw

/-! ## The transaction (R100) -/

/-- R100, R141 (e): the end of a transaction, after the exchange has answered `r`: chip-select is
released whatever `r` is, and only then is the error returned or the response decoded (log entry 16). -/
def closeTransaction (c : Command) (r : Answer E) (s : State E) : Res (Byte × Response) E :=
  match r with
  | .err e => (pin .csn true s.loseBuf).andThen fun _ s1 => .stop (.transportFailure e) s1
  | .ok rx =>
    (pin .csn true s).andThen fun _ s1 =>
      let s2 := s1.fillRegion rx
      .done (statusOf s2.buf, decodeResponse c s2.region) s2

/-- R100: `Transact(c)`, status and response. -/
def transact (p : Config.Params) (c : Command) (s : State E) : Res (Byte × Response) E :=
  if frameLen c > Config.BUF_LEN then raise .payloadTooLong s
  else
    (pin .csn false (s.allocBuf (encodeFrame p c))).andThen fun _ s1 =>
      let answered := exchange s1.region s1
      closeTransaction c answered.1 answered.2

/-! ## The host port -/

/-- R98, R136: an operation other than `construct` is performed only by a live block that has not
faulted; otherwise the host port refuses it and nothing else happens. -/
def hostPort (op : State E → Res Value E) (s : State E) : Host.Outcome (State E) Fault Refusal :=
  .next (if s.live = true ∧ s.fault = false then (op s).finish else s.answer (.refused .notLive))

end Sys2Proof.Machine
end

