-- ==== Sys2Proof/Machine/Transport.lean ====
section
/-! DEFINITION. The Transport (42_transport.md): its operations, first as nested operations (`op…`),
then as meanings of host operations (`exec…`). -/

namespace Sys2Proof.Machine

variable {E : Type}

/-- R100: `send_command(c)`. -/
def opSendCommand (p : Config.Params) (c : Command) (s : State E) : Res Value E :=
  (transact p c s).andThen fun (status, response) s1 => .done (.command status response) s1

/-- R101: `write_register(a, w, v)`, answering Status. -/
def opWriteRegister (p : Config.Params) (a : RegAddr) (w : Nat) (v : List Byte) (s : State E) : Res Byte E :=
  (transact p (.writeRegister a w v) s).andThen fun (status, _) s1 => .done status s1

/-- R102: `read_register(a, w)`, answering Status and the register's value. -/
def opReadRegister (p : Config.Params) (a : RegAddr) (w : Nat) (s : State E) : Res (Byte × List Byte) E :=
  (transact p (.readRegister a w) s).andThen fun (status, response) s1 => .done (status, response.bytes) s1

/-- R103: `update_register(a, w, f)`. -/
def opUpdateRegister (p : Config.Params) (a : RegAddr) (w : Nat) (f : Mutator) (s : State E) : Res MutResult E :=
  if a = p.ADDR_CONFIG then raise .configViaUpdateRegister s
  else
    (opReadRegister p a w s).andThen fun (_, old) s1 =>
      let new := (evalMutator f old).1
      let s2 := s1.setTemps old new
      if new ≠ old then (opWriteRegister p a w new s2).andThen fun _ s3 => .done (evalMutator f old).2 s3
      else .done (evalMutator f old).2 s2

/-- R104: `update_config(f)`, for a function on the CONFIG byte. -/
def updateConfigWith (p : Config.Params) (f : Byte → Byte × MutResult) (s : State E) : Res MutResult E :=
  let old := s.cfg
  let new := (f old).1
  let s1 := (s.setTemps [old] [new]).setCfg new
  if new ≠ old then
    (opWriteRegister p p.ADDR_CONFIG 1 [new] s1).andThen fun _ s2 => .done (f old).2 s2
  else .done (f old).2 s1

/-- R104: `update_config(f)` for the host's mutator. -/
def opUpdateConfig (p : Config.Params) (f : Mutator) (s : State E) : Res MutResult E := updateConfigWith p (evalMutatorByte f) s

/-- R105: `is_connected()`. -/
def opIsConnected (p : Config.Params) (s : State E) : Res Bool E :=
  (opReadRegister p p.ADDR_SETUP_AW 1 s).andThen fun (_, v) s1 => .done (plausibleAw (v.headD 0#8)) s1

/-- R106: `ce_enable()`. -/
def opCeEnable (s : State E) : Res Value E := (pin .ce true s).andThen fun _ s1 => .done .unit s1

/-- R107: `ce_disable()`. -/
def opCeDisable (s : State E) : Res Value E := (pin .ce false s).andThen fun _ s1 => .done .unit s1

/-- R100. -/
def execSendCommand (c : Command) (s : State E) : Host.Outcome (State E) Fault Refusal := hostPort (opSendCommand s.params c) s

/-- R101. -/
def execWriteRegister (a : RegAddr) (w : Nat) (v : List Byte) (s : State E) : Host.Outcome (State E) Fault Refusal :=
  hostPort (fun t => (opWriteRegister s.params a w v t).andThen fun status s1 => .done (.status status) s1) s

/-- R102. -/
def execReadRegister (a : RegAddr) (w : Nat) (s : State E) : Host.Outcome (State E) Fault Refusal :=
  hostPort (fun t => (opReadRegister s.params a w t).andThen fun (status, v) s1 => .done (.register status v) s1) s

/-- R103. -/
def execUpdateRegister (a : RegAddr) (w : Nat) (f : Mutator) (s : State E) : Host.Outcome (State E) Fault Refusal :=
  hostPort (fun t => (opUpdateRegister s.params a w f t).andThen fun r s1 => .done (.mutator r) s1) s

/-- R104. -/
def execUpdateConfig (f : Mutator) (s : State E) : Host.Outcome (State E) Fault Refusal :=
  hostPort (fun t => (opUpdateConfig s.params f t).andThen fun r s1 => .done (.mutator r) s1) s

/-- R105. -/
def execIsConnected (s : State E) : Host.Outcome (State E) Fault Refusal :=
  hostPort (fun t => (opIsConnected s.params t).andThen fun b s1 => .done (.bool b) s1) s

/-- R106. -/
def execCeEnable (s : State E) : Host.Outcome (State E) Fault Refusal := hostPort opCeEnable s

/-- R107. -/
def execCeDisable (s : State E) : Host.Outcome (State E) Fault Refusal := hostPort opCeDisable s

end Sys2Proof.Machine
end

