-- ==== Sys2Proof/Machine/Codec.lean ====
section
/-! DEFINITION. The eight wire commands (41_codec_commands.md R87 to R94) as instructions of their own:
each is one transaction of that command at the host port, under the guard of R98 (log entry 8). -/

namespace Sys2Proof.Machine

variable {E : Type}

/-- R87. -/
def execWireReadRegister (a : RegAddr) (w : Nat) (s : State E) : Host.Outcome (State E) Fault Refusal :=
  hostPort (opSendCommand s.params (.readRegister a w)) s

/-- R88. -/
def execWireWriteRegister (a : RegAddr) (w : Nat) (v : List Byte) (s : State E) : Host.Outcome (State E) Fault Refusal :=
  hostPort (opSendCommand s.params (.writeRegister a w v)) s

/-- R89. -/
def execWireReadRxPayload (n : Nat) (s : State E) : Host.Outcome (State E) Fault Refusal :=
  hostPort (opSendCommand s.params (.readRxPayload n)) s

/-- R90. -/
def execWireReadRxPayloadWidth (s : State E) : Host.Outcome (State E) Fault Refusal :=
  hostPort (opSendCommand s.params .readRxPayloadWidth) s

/-- R91. -/
def execWireWriteTxPayload (d : List Byte) (s : State E) : Host.Outcome (State E) Fault Refusal :=
  hostPort (opSendCommand s.params (.writeTxPayload d)) s

/-- R92. -/
def execWireFlushTx (s : State E) : Host.Outcome (State E) Fault Refusal := hostPort (opSendCommand s.params .flushTx) s

/-- R93. -/
def execWireFlushRx (s : State E) : Host.Outcome (State E) Fault Refusal := hostPort (opSendCommand s.params .flushRx) s

/-- R94. -/
def execWireActivate (s : State E) : Host.Outcome (State E) Fault Refusal := hostPort (opSendCommand s.params .activate) s

end Sys2Proof.Machine
end

