-- ==== Sys2Proof/Machine/Construct.lean ====
section
/-! DEFINITION. Construction, the block's reset (70_reset_and_hazards.md R151 to R156). -/

namespace Sys2Proof.Machine

variable {E : Type}

/-- R152: one element of the batch.  Its result is discarded. -/
def runBatchOp (p : Config.Params) (op : BatchOp) (s : State E) : Res Unit E :=
  match op with
  | .writeRegister a w v => (opWriteRegister p a w v s).andThen fun _ s1 => .done () s1
  | .updateRegister a w f => (opUpdateRegister p a w f s).andThen fun _ s1 => .done () s1
  | .updateConfig f => (opUpdateConfig p f s).andThen fun _ s1 => .done () s1
  | .sendCommand c => (transact p c s).andThen fun _ s1 => .done () s1

/-- R152: the batch, in list order; the first early end ends it. -/
def runBatch (p : Config.Params) : List BatchOp → State E → Res Unit E
  | [], s => .done () s
  | op :: ops, s => (runBatchOp p op s).andThen fun _ s1 => runBatch p ops s1

/-- R152: `construct(batch)` up to `live <- true`. -/
def constructBody (p : Config.Params) (batch : List BatchOp) (s : State E) : Res Unit E :=
  (pin .ce false ((s.setLive false).setFault false)).andThen fun _ s1 =>
    (pin .csn true s1).andThen fun _ s2 =>
      (opIsConnected p ((s2.setCfg (constructCfg p)).setMode .standby)).andThen fun ok s3 =>
        if ok = true then runBatch p batch s3 else .stop .notConnected s3

/-- R152, R155, R32: `construct(batch)` with what the table of R32 says it leaves. -/
def opConstruct (p : Config.Params) (batch : List BatchOp) (s : State E) : Res Value E :=
  match constructBody p batch s with
  | .done _ t => .done .unit (t.setLive true).forgetWorking
  | .stop e t => .stop e t.forgetWorking.forgetModeCfg

/-- R152, R156: accepted in every state. -/
def execConstruct (batch : List BatchOp) (s : State E) : Host.Outcome (State E) Fault Refusal :=
  .next (opConstruct s.params batch s).finish

end Sys2Proof.Machine
end

