-- ==== Sys2Proof/Machine/ModeMachine.lean ====
section
/-! DEFINITION. The mode state machine (43_mode_machine.md): the transitions, the polls, `send`, `read`
and `clear_interrupts`, as nested operations and as meanings. -/

namespace Sys2Proof.Machine

variable {E : Type}

/-- R113: `enter_tx()`. -/
def opEnterTx (p : Config.Params) (s : State E) : Res Unit E :=
  if s.mode = .tx then .done () s
  else
    (pin .ce false s).andThen fun _ s1 =>
      (updateConfigWith p (fun c => (setPrimRx p c false, .unit)) s1).andThen fun _ s2 => .done () (s2.setMode .tx)

/-- The poll of the three `wait_*` operations (R115 to R117): Status and FIFO_STATUS of one read. -/
def pollFifo (p : Config.Params) (s : State E) : Res (Byte × Byte) E :=
  (opReadRegister p p.ADDR_FIFO_STATUS 1 s).andThen fun (status, v) s1 => .done (status, v.headD 0#8) s1

/-- R120: the discard step. -/
def discardStuck (p : Config.Params) (s : State E) : Res Unit E :=
  (transact p .flushTx s).andThen fun _ s1 =>
    (opWriteRegister p p.ADDR_STATUS 1 [stClearTx p] s1).andThen fun _ s2 => .stop .wouldBlock s2

/-- R115: `wait_tx_ready()`. -/
def opWaitTxReady (p : Config.Params) (s : State E) : Res Unit E :=
  (opEnterTx p s).andThen fun _ s1 =>
    (pollFifo p s1).andThen fun (status, f) s2 =>
      if maxRt p status = true then discardStuck p s2
      else if txFull p f = true then .stop .wouldBlock s2
      else .done () s2

/-- R116: `wait_tx_empty()`. -/
def opWaitTxEmpty (p : Config.Params) (s : State E) : Res Unit E :=
  (opEnterTx p s).andThen fun _ s1 =>
    (pollFifo p s1).andThen fun (status, f) s2 =>
      if maxRt p status = true then discardStuck p s2
      else if txEmpty p f = false then .stop .wouldBlock s2
      else pin .ce false s2

/-- R112: `enter_rx()`. -/
def opEnterRx (p : Config.Params) (s : State E) : Res Unit E :=
  if s.mode = .rx then .done () s
  else
    (opWaitTxEmpty p s).andThen fun _ s1 =>
      (pin .ce true s1).andThen fun _ s2 =>
        (updateConfigWith p (fun c => (setPrimRx p c true, .unit)) s2).andThen fun _ s3 => .done () (s3.setMode .rx)

/-- R114: `send(packet)`. -/
def opSend (p : Config.Params) (packet : List Byte) (s : State E) : Res Unit E :=
  if packet.length > Config.MAX_PAYLOAD then raise .payloadTooLong s
  else
    (opEnterTx p s).andThen fun _ s1 =>
      (transact p (.writeTxPayload packet) s1).andThen fun _ s2 => pin .ce true s2

/-- R117: `wait_rx_ready()`. -/
def opWaitRxReady (p : Config.Params) (s : State E) : Res (BitVec 3) E :=
  (opEnterRx p s).andThen fun _ s1 =>
    (pollFifo p s1).andThen fun (status, f) s2 =>
      if rxEmpty p f = true then .stop .wouldBlock s2 else .done (rxPNo p status) s2

/-- R118: `read()`. -/
def opRead (p : Config.Params) (s : State E) : Res (List Byte) E :=
  (opEnterRx p s).andThen fun _ s1 =>
    (transact p .readRxPayloadWidth s1).andThen fun (_, response) s2 =>
      let width := (response.bytes.headD 0#8).toNat
      if width > Config.MAX_PAYLOAD then raise .payloadTooLong s2
      else
        (transact p (.readRxPayload width) s2).andThen fun (_, payload) s3 => .done payload.bytes s3

/-- R119: `clear_interrupts()`. -/
def opClearInterrupts (p : Config.Params) (s : State E) : Res Unit E :=
  (opWriteRegister p p.ADDR_STATUS 1 [stClearAll p] s).andThen fun _ s1 => .done () s1

/-- An operation whose result is `()`, as R69's third column has it. -/
def unitOp (op : State E → Res Unit E) (s : State E) : Res Value E := (op s).andThen fun _ s1 => .done .unit s1

/-- R112. -/
def execEnterRx (s : State E) : Host.Outcome (State E) Fault Refusal := hostPort (unitOp (opEnterRx s.params)) s

/-- R113. -/
def execEnterTx (s : State E) : Host.Outcome (State E) Fault Refusal := hostPort (unitOp (opEnterTx s.params)) s

/-- R114. -/
def execSend (packet : List Byte) (s : State E) : Host.Outcome (State E) Fault Refusal :=
  hostPort (unitOp (opSend s.params packet)) s

/-- R115. -/
def execWaitTxReady (s : State E) : Host.Outcome (State E) Fault Refusal := hostPort (unitOp (opWaitTxReady s.params)) s

/-- R116. -/
def execWaitTxEmpty (s : State E) : Host.Outcome (State E) Fault Refusal := hostPort (unitOp (opWaitTxEmpty s.params)) s

/-- R117. -/
def execWaitRxReady (s : State E) : Host.Outcome (State E) Fault Refusal :=
  hostPort (fun t => (opWaitRxReady s.params t).andThen fun p s1 => .done (.pipe p) s1) s

/-- R118. -/
def execRead (s : State E) : Host.Outcome (State E) Fault Refusal :=
  hostPort (fun t => (opRead s.params t).andThen fun p s1 => .done (.payload p) s1) s

/-- R119. -/
def execClearInterrupts (s : State E) : Host.Outcome (State E) Fault Refusal := hostPort (unitOp (opClearInterrupts s.params)) s

end Sys2Proof.Machine
end

