-- ==== Sys2Proof/Machine/Dispatch.lean ====
section
/-! DEFINITION. One arm per instruction. -/

namespace Sys2Proof.Machine

def exec (i : Instr) (s : State) : Host.Outcome State Fault Refusal :=
  match i with
  -- wire commands (41_codec_commands.md)
  | .wireReadRegister a w => Sys2Proof.Machine.execWireReadRegister a w s
  | .wireWriteRegister a w v => Sys2Proof.Machine.execWireWriteRegister a w v s
  | .wireReadRxPayload n => Sys2Proof.Machine.execWireReadRxPayload n s
  | .wireReadRxPayloadWidth => Sys2Proof.Machine.execWireReadRxPayloadWidth s
  | .wireWriteTxPayload d => Sys2Proof.Machine.execWireWriteTxPayload d s
  | .wireFlushTx => Sys2Proof.Machine.execWireFlushTx s
  | .wireFlushRx => Sys2Proof.Machine.execWireFlushRx s
  | .wireActivate => Sys2Proof.Machine.execWireActivate s
  -- construction (70_reset_and_hazards.md)
  | .construct batch => Sys2Proof.Machine.execConstruct batch s
  -- the Transport (42_transport.md)
  | .ceEnable => Sys2Proof.Machine.execCeEnable s
  | .ceDisable => Sys2Proof.Machine.execCeDisable s
  | .sendCommand c => Sys2Proof.Machine.execSendCommand c s
  | .writeRegister a w v => Sys2Proof.Machine.execWriteRegister a w v s
  | .readRegister a w => Sys2Proof.Machine.execReadRegister a w s
  | .updateRegister a w f => Sys2Proof.Machine.execUpdateRegister a w f s
  | .updateConfig f => Sys2Proof.Machine.execUpdateConfig f s
  | .isConnected => Sys2Proof.Machine.execIsConnected s
  -- the mode machine (43_mode_machine.md)
  | .enterRx => Sys2Proof.Machine.execEnterRx s
  | .enterTx => Sys2Proof.Machine.execEnterTx s
  | .send packet => Sys2Proof.Machine.execSend packet s
  | .waitTxReady => Sys2Proof.Machine.execWaitTxReady s
  | .waitTxEmpty => Sys2Proof.Machine.execWaitTxEmpty s
  | .waitRxReady => Sys2Proof.Machine.execWaitRxReady s
  | .read => Sys2Proof.Machine.execRead s
  | .clearInterrupts => Sys2Proof.Machine.execClearInterrupts s

end Sys2Proof.Machine
end

