-- ==== Sys2Proof/Machine/Fetch.lean ====
section
/-! DEFINITION. Taking the next request from the host and reading what it asks for. -/

namespace Sys2Proof.Machine

/-- R69, R136: what becomes of a request that spells no instruction.  An unassigned select code is
`Refused(UnknownOperation)`, with no state change and no event; the two other kinds are not
representable in the spec. -/
def undecoded {E : Type} (e : DecodeError) (s : State E) : Host.Outcome (State E) Fault Refusal :=
  match e with
  | .unknownOperation => .next (s.answer (.refused .unknownOperation))
  | .malformedOperands => .refused .malformedRequest
  | .rejectedFrame => .refused .rejectedFrame

/-- One request, taken from the queue already; `run` is the meaning of instructions. -/
def serveWith {E : Type} (run : Instr → State E → Host.Outcome (State E) Fault Refusal) (r : Request) (s : State E) :
    Host.Outcome (State E) Fault Refusal :=
  match decode s.params r with
  | .ok i => run i s
  | .error e => undecoded e s

/-- The host's next request is served from its first event to its outcome (R22, R48); with no request the
block does nothing (R3). -/
def stepWith {E : Type} (run : Instr → State E → Host.Outcome (State E) Fault Refusal) (s : State E) :
    Host.Outcome (State E) Fault Refusal :=
  match s.requests with
  | [] => .next s
  | r :: rest => serveWith run r (s.setRequests rest)

end Sys2Proof.Machine
end

