-- ==== Sys2Proof/Machine/Step.lean ====
section
/-! DEFINITION. One step: the block serves the host's next request from its first event to its outcome
(R22, R48); with no request it does nothing (R3). -/

namespace Sys2Proof.Machine

/-- One step of the machine. -/
def step (s : State) : Host.Outcome State Fault Refusal := stepWith exec s

/-- The state whose next request is the one a table word stands for (log entry 5). -/
def State.withFetchWord (s : State) (nbits w : Nat) : State :=
  s.setRequests (tableRequest s.params nbits w :: s.requests)

end Sys2Proof.Machine
end

