-- ==== Sys2Proof/Machine/AnyError.lean ====
section
/-! DEFINITION. The machine over any type `E` of transport errors (R9, D31).  The host's interface asks for
one state type, so `exec` and `step` are closed at `TransportError`; these are the same meanings with `E`
left open. -/

namespace Sys2Proof.Machine

variable {E : Type}

/-- The meaning of an instruction, whatever the type of errors. -/
def execOf (i : Instr) (s : State E) : Host.Outcome (State E) Fault Refusal :=
  match i with
  | .wireReadRegister a w => execWireReadRegister a w s
  | .wireWriteRegister a w v => execWireWriteRegister a w v s
  | .wireReadRxPayload n => execWireReadRxPayload n s
  | .wireReadRxPayloadWidth => execWireReadRxPayloadWidth s
  | .wireWriteTxPayload d => execWireWriteTxPayload d s
  | .wireFlushTx => execWireFlushTx s
  | .wireFlushRx => execWireFlushRx s
  | .wireActivate => execWireActivate s
  | .construct batch => execConstruct batch s
  | .ceEnable => execCeEnable s
  | .ceDisable => execCeDisable s
  | .sendCommand c => execSendCommand c s
  | .writeRegister a w v => execWriteRegister a w v s
  | .readRegister a w => execReadRegister a w s
  | .updateRegister a w f => execUpdateRegister a w f s
  | .updateConfig f => execUpdateConfig f s
  | .isConnected => execIsConnected s
  | .enterRx => execEnterRx s
  | .enterTx => execEnterTx s
  | .send packet => execSend packet s
  | .waitTxReady => execWaitTxReady s
  | .waitTxEmpty => execWaitTxEmpty s
  | .waitRxReady => execWaitRxReady s
  | .read => execRead s
  | .clearInterrupts => execClearInterrupts s

/-- One step, whatever the type of errors. -/
def stepOf (s : State E) : Host.Outcome (State E) Fault Refusal := stepWith execOf s

end Sys2Proof.Machine
end

