-- ==== Sys2Proof/Safety.lean ====
section
/-! DEFINITION. The terms the claims are stated in: when the host port serves, what a transaction looks
like in the trace and what it leaves, and the invariants of a safe run. -/

namespace Sys2Proof.Machine

/-- R98: the host port performs operations. -/
def Ready (s : State) : Prop := s.live = true ∧ s.fault = false

/-- A premise about the environment: the next `lines` line writes succeed and the next exchanges are
answered by `xs`. -/
def Answers (s : State) (lines : Nat) (xs : List Answer) : Prop :=
  s.lineAnswers.take lines = List.replicate lines true ∧ xs <+: s.exchAnswers

/-- R100: the events of one transaction whose line writes succeed. -/
def transactionEvents (frame : List Byte) (r : Answer) : List Event :=
  [.pinWrite .csn false, .exchange frame r, .pinWrite .csn true]

/-- R100: what a successful transaction leaves: CSN high, the response in the buffer's region, three
events, and its answers consumed. -/
def State.afterTransaction (s : State) (frame rx : List Byte) : State :=
  { s with
    csn := true
    buf := rx ++ freeTail s.draws frame.length
    len := frame.length
    trace := s.trace ++ transactionEvents frame (.ok rx)
    exchAnswers := s.exchAnswers.drop 1
    lineAnswers := s.lineAnswers.drop 2
    draws := s.draws + 1 }

/-- R100: what a transaction whose exchange fails leaves: the same but for the buffer, which is lost. -/
def State.afterFailedTransaction (s : State) (frame : List Byte) (e : TransportError) : State :=
  { s with
    csn := true
    buf := freeTail (s.draws + 1) 0
    len := frame.length
    trace := s.trace ++ transactionEvents frame (.err e)
    exchAnswers := s.exchAnswers.drop 1
    lineAnswers := s.lineAnswers.drop 2
    draws := s.draws + 2 }

/-- The operation completes as one successful transaction that answers outcome `o`: the next state is
what R100 says the transaction leaves, and the outcome is added. -/
def CompletesAs (i : Instr) (s : State) (frame rx : List Byte) (o : OpOutcome) : Prop :=
  exec i s = .next { s.afterTransaction frame rx with outcomes := s.outcomes ++ [o] }

/-- The operation ends with the bus error of its one transaction (R100, R143). -/
def EndsWithBusError (i : Instr) (s : State) (frame : List Byte) (e : TransportError) : Prop :=
  exec i s = .next { s.afterFailedTransaction frame e with outcomes := s.outcomes ++ [.transportFailure e] }

/-- How the operation's one transaction ends at a failing chip-select write (R100, R135, R141 (e)).  A
failed first write ends it before the exchange; a failed last one loses the exchange's answer, be it a
response or an error.  Mode, cache, CE and `live` stay in both. -/
def EndsAtFailedLineWrite (i : Instr) (s : State) (frame : List Byte) : Prop :=
  (s.lineAnswers.head? = some false →
    ∃ t, exec i s = .next t ∧ t.trace = s.trace ++ [.pinWrite .csn false] ∧ t.csn = false ∧ t.fault = true ∧
      t.outcomes = s.outcomes ++ [.fault (.lineWriteFailed .csn)] ∧ t.exchAnswers = s.exchAnswers ∧
      t.params = s.params ∧ t.mode = s.mode ∧ t.cfg = s.cfg ∧ t.ce = s.ce ∧ t.live = s.live) ∧
  (∀ r : Answer, (∀ rx, r = .ok rx → rx.length = frame.length) → s.lineAnswers.take 2 = [true, false] →
    s.exchAnswers.head? = some r →
    ∃ t, exec i s = .next t ∧ t.trace = s.trace ++ transactionEvents frame r ∧ t.csn = true ∧ t.fault = true ∧
      t.outcomes = s.outcomes ++ [.fault (.lineWriteFailed .csn)] ∧
      t.params = s.params ∧ t.mode = s.mode ∧ t.cfg = s.cfg ∧ t.ce = s.ce ∧ t.live = s.live)

/-- The operation ends with a fault before any event, and changes nothing but the sticky bit (R141 (a),
R145). -/
def FaultsAtOnce (i : Instr) (s : State) (r : FaultReason) : Prop :=
  exec i s = .next { s with fault := true, outcomes := s.outcomes ++ [.fault r] }

/-- What a finished operation of a ready block leaves in the architectural state, the trace and the
environment's script: mode, cache and CE as given, the events appended, one outcome answered, and so
many line answers and exchange answers consumed; the parameters as they were. -/
structure Leaves (s t : State) (mode : Mode) (cfg : Byte) (ce : Bool) (events : List Event)
    (outcome : OpOutcome) (lines exchanges : Nat) : Prop where
  params : t.params = s.params
  live : t.live = true
  fault : t.fault = false
  mode : t.mode = mode
  cfg : t.cfg = cfg
  ce : t.ce = ce
  trace : t.trace = s.trace ++ events
  outcomes : t.outcomes = s.outcomes ++ [outcome]
  lineAnswers : t.lineAnswers = s.lineAnswers.drop lines
  exchAnswers : t.exchAnswers = s.exchAnswers.drop exchanges
  requests : t.requests = s.requests

/-- R57: the frame of the FIFO_STATUS poll. -/
def pollFrame (p : Config.Params) : List Byte := encodeFrame p (.readRegister p.ADDR_FIFO_STATUS 1)

/-- R57: the frame that writes CONFIG. -/
def configFrame (p : Config.Params) (c : Byte) : List Byte := encodeFrame p (.writeRegister p.ADDR_CONFIG 1 [c])

/-- R57: the frame that writes STATUS. -/
def statusFrame (p : Config.Params) (c : Byte) : List Byte := encodeFrame p (.writeRegister p.ADDR_STATUS 1 [c])

/-- R104: the events of a CONFIG write that happens only if the value changed. -/
def configWrite (p : Config.Params) (old new : Byte) (rx : List Byte) : List Event :=
  if new ≠ old then transactionEvents (configFrame p new) (.ok rx) else []

/-- R104: the answers that write takes. -/
def configAnswers (old new : Byte) (rx : List Byte) : List Answer := if new ≠ old then [.ok rx] else []

/-! R113: what "ensure Tx" (`enter_tx()?`) does from a state: the cache and CE after it, its events, the
exchange answers and the number of line answers it takes; `rx` answers its CONFIG write, if there is
one. -/

def txCfg (s : State) : Byte := if s.mode = .tx then s.cfg else setPrimRx s.params s.cfg false
def txCe (s : State) : Bool := if s.mode = .tx then s.ce else false
def txEvents (s : State) (rx : List Byte) : List Event :=
  if s.mode = .tx then [] else .pinWrite .ce false :: configWrite s.params s.cfg (txCfg s) rx
def txAnswers (s : State) (rx : List Byte) : List Answer :=
  if s.mode = .tx then [] else configAnswers s.cfg (txCfg s) rx
def txLines (s : State) (rx : List Byte) : Nat := if s.mode = .tx then 0 else 1 + 2 * (txAnswers s rx).length

/-! R112: the same for "ensure Rx" (`enter_rx()?`) that finds the TX FIFO empty: `poll` answers the
FIFO_STATUS read, `rx1` the CONFIG write that sets `PRIM_RX`. -/

def rxCfg (s : State) : Byte := if s.mode = .rx then s.cfg else setPrimRx s.params (txCfg s) true
def rxCe (s : State) : Bool := if s.mode = .rx then s.ce else true
def rxEvents (s : State) (rx0 poll rx1 : List Byte) : List Event :=
  if s.mode = .rx then []
  else
    txEvents s rx0 ++ transactionEvents (pollFrame s.params) (.ok poll) ++ [.pinWrite .ce false, .pinWrite .ce true] ++
      configWrite s.params (txCfg s) (rxCfg s) rx1
def rxAnswers (s : State) (rx0 poll rx1 : List Byte) : List Answer :=
  if s.mode = .rx then [] else txAnswers s rx0 ++ [.ok poll] ++ configAnswers (txCfg s) (rxCfg s) rx1
def rxLines (s : State) (rx0 rx1 : List Byte) : Nat :=
  if s.mode = .rx then 0
  else txLines s rx0 + 4 + 2 * (configAnswers (txCfg s) (rxCfg s) rx1).length

/-- R120: the events of the discard step. -/
def discardEvents (p : Config.Params) (rx1 rx2 : List Byte) : List Event :=
  transactionEvents (encodeFrame p .flushTx) (.ok rx1) ++ transactionEvents (statusFrame p (stClearTx p)) (.ok rx2)

/-- R85: the typed result of a command from the response bytes after Status. -/
def resultOf (c : Command) (data : List Byte) : Response :=
  match c with
  | .readRegister _ _ => .register data
  | .readRxPayload _ => .payload data
  | .readRxPayloadWidth => .width (data.headD 0#8)
  | .writeRegister _ _ _ => .unit
  | .writeTxPayload _ => .unit
  | .flushTx => .unit
  | .flushRx => .unit
  | .activate => .unit

/-- R8, R17, R20, R21, R38: the shape every state of a run has: the parameters meet their constraints, the
buffer has its 33 bytes and a length in range, the temporaries a register's width, and a block that has not
faulted has CSN high. -/
structure State.Wf (s : State) : Prop where
  params : s.params.Valid
  buf : s.buf.length = Config.BUF_LEN
  lenPos : 1 ≤ s.len
  lenLe : s.len ≤ Config.BUF_LEN
  oldWidth : widthOk s.old.length = true
  newWidth : widthOk s.new.length = true
  csn : s.fault = false → s.csn = true

/-- R108: a trace in which every transaction is whole: CE writes, and CSN low, one exchange of at most
33 bytes answered in full or not at all, CSN high. -/
def framed : List Event → Bool
  | [] => true
  | .pinWrite .ce _ :: rest => framed rest
  | .pinWrite .csn false :: .exchange tx (.ok rx) :: .pinWrite .csn true :: rest =>
    decide (1 ≤ tx.length) && decide (tx.length ≤ Config.BUF_LEN) && decide (rx.length = tx.length) && framed rest
  | .pinWrite .csn false :: .exchange tx (.err _) :: .pinWrite .csn true :: rest =>
    decide (1 ≤ tx.length) && decide (tx.length ≤ Config.BUF_LEN) && framed rest
  | _ => false

/-- R108, R135: the events end at a failing write of line `l`; before it are CE writes and whole
transactions, and, where the write was to close a transaction, that transaction's opening and
exchange. -/
def CutAtLineWrite (l : Line) (events : List Event) : Prop :=
  ∃ (whole opened : List Event) (b : Bool), events = whole ++ opened ++ [.pinWrite l b] ∧ framed whole = true ∧
    (opened = [] ∨ ∃ tx r, opened = [.pinWrite .csn false, .exchange tx r] ∧ l = .csn ∧ b = true)

/-- An exchange. -/
def Event.isExchange {E : Type} : Event E → Bool
  | .exchange _ _ => true
  | .pinWrite _ _ => false

/-- A write to CE. -/
def Event.isCeWrite {E : Type} : Event E → Bool
  | .pinWrite .ce _ => true
  | .pinWrite .csn _ => false
  | .exchange _ _ => false

/-- How many exchanges a piece of trace holds. -/
def exchanges {E : Type} (es : List (Event E)) : Nat := es.countP Event.isExchange

/-- R123: the latest write of 1 to CE ended a `send`: a payload transaction comes right before it. -/
def LastRaiseEndsSend (p : Config.Params) (trace : List Event) : Prop :=
  ∃ (before after : List Event) (d rx : List Byte),
    trace = before ++ transactionEvents (encodeFrame p (.writeTxPayload d)) (.ok rx) ++ [.pinWrite .ce true] ++ after ∧
    .pinWrite .ce true ∉ after

/-- R123: the mode invariants. -/
structure ModeInv (s : State) : Prop where
  standby : s.mode = .standby → s.ce = false ∧ primRx s.params s.cfg = primRx s.params s.params.CONFIG_RESET
  rx : s.mode = .rx → s.ce = true ∧ primRx s.params s.cfg = true
  tx : s.mode = .tx → primRx s.params s.cfg = false ∧ (s.ce = true → LastRaiseEndsSend s.params s.trace)

/-- R123 (ii): a mutator of CONFIG that leaves `PRIM_RX` as it is. -/
def KeepsPrimRx (p : Config.Params) (f : Mutator) : Prop := ∀ c : Byte, primRx p (evalMutatorByte f c).1 = primRx p c

/-- R123 (ii): the command does not write CONFIG. -/
def SparesConfig (p : Config.Params) : Command → Prop
  | .writeRegister a _ _ => a ≠ p.ADDR_CONFIG
  | .readRegister _ _ => True
  | .readRxPayload _ => True
  | .readRxPayloadWidth => True
  | .writeTxPayload _ => True
  | .flushTx => True
  | .flushRx => True
  | .activate => True

/-- R123 (ii) for a batch element. -/
def BatchKeepsPremise (p : Config.Params) : BatchOp → Prop
  | .writeRegister a _ _ => a ≠ p.ADDR_CONFIG
  | .updateRegister _ _ _ => True
  | .updateConfig f => KeepsPrimRx p f
  | .sendCommand c => SparesConfig p c

/-- R123 (ii): the requests whose runs the mode invariants speak of. -/
def KeepsPremise (p : Config.Params) : Instr → Prop
  | .ceEnable => False
  | .ceDisable => False
  | .updateConfig f => KeepsPrimRx p f
  | .writeRegister a _ _ => a ≠ p.ADDR_CONFIG
  | .wireWriteRegister a _ _ => a ≠ p.ADDR_CONFIG
  | .sendCommand c => SparesConfig p c
  | .construct batch => ∀ op ∈ batch, BatchKeepsPremise p op
  | .wireReadRegister _ _ => True
  | .wireReadRxPayload _ => True
  | .wireReadRxPayloadWidth => True
  | .wireWriteTxPayload _ => True
  | .wireFlushTx => True
  | .wireFlushRx => True
  | .wireActivate => True
  | .readRegister _ _ => True
  | .updateRegister _ _ _ => True
  | .isConnected => True
  | .enterRx => True
  | .enterTx => True
  | .send _ => True
  | .waitTxReady => True
  | .waitTxEmpty => True
  | .waitRxReady => True
  | .read => True
  | .clearInterrupts => True

/-- R123 (i): an outcome that is neither `Err` nor `Fault`. -/
def OpOutcome.benign : OpOutcome → Bool
  | .ok _ => true
  | .wouldBlock => true
  | .refused _ => true
  | .transportFailure _ => false
  | .notConnected => false
  | .fault _ => false

/-- R152: the transactions a batch makes, in order, each command with the bytes that answer it, when
every operation of the batch ends with `Ok`; and how it changes the cache, from the first byte to the
last.  An update makes its write only where the value changes (R103, R104). -/
inductive BatchMakes (p : Config.Params) : Byte → List BatchOp → List (Command × List Byte) → Byte → Prop where
  | nil (cfg : Byte) : BatchMakes p cfg [] [] cfg
  | send {cfg cfg' : Byte} {ops : List BatchOp} {made : List (Command × List Byte)} (c : Command) (rx : List Byte)
      (wf : c.wf = true) (short : frameLen c ≤ Config.BUF_LEN) (fits : rx.length = frameLen c)
      (rest : BatchMakes p cfg ops made cfg') : BatchMakes p cfg (.sendCommand c :: ops) ((c, rx) :: made) cfg'
  | write {cfg cfg' : Byte} {ops : List BatchOp} {made : List (Command × List Byte)} (a : RegAddr) (w : Nat)
      (v rx : List Byte) (wf : Command.wf (.writeRegister a w v) = true) (fits : rx.length = 1 + w)
      (rest : BatchMakes p cfg ops made cfg') :
      BatchMakes p cfg (.writeRegister a w v :: ops) ((.writeRegister a w v, rx) :: made) cfg'
  | updateSame {cfg cfg' : Byte} {ops : List BatchOp} {made : List (Command × List Byte)} (a : RegAddr) (w : Nat)
      (f : Mutator) (st : Byte) (old : List Byte) (wf : BatchOp.wf (.updateRegister a w f) = true)
      (other : a ≠ p.ADDR_CONFIG) (fits : old.length = w) (same : (evalMutator f old).1 = old)
      (rest : BatchMakes p cfg ops made cfg') :
      BatchMakes p cfg (.updateRegister a w f :: ops) ((.readRegister a w, st :: old) :: made) cfg'
  | updateWrites {cfg cfg' : Byte} {ops : List BatchOp} {made : List (Command × List Byte)} (a : RegAddr) (w : Nat)
      (f : Mutator) (st : Byte) (old rx : List Byte) (wf : BatchOp.wf (.updateRegister a w f) = true)
      (other : a ≠ p.ADDR_CONFIG) (fits : old.length = w) (changed : (evalMutator f old).1 ≠ old)
      (fits' : rx.length = 1 + w) (rest : BatchMakes p cfg ops made cfg') :
      BatchMakes p cfg (.updateRegister a w f :: ops)
        ((.readRegister a w, st :: old) :: (.writeRegister a w (evalMutator f old).1, rx) :: made) cfg'
  | configSame {cfg cfg' : Byte} {ops : List BatchOp} {made : List (Command × List Byte)} (f : Mutator)
      (wf : f.wf 1 = true) (same : (evalMutatorByte f cfg).1 = cfg) (rest : BatchMakes p cfg ops made cfg') :
      BatchMakes p cfg (.updateConfig f :: ops) made cfg'
  | configWrites {cfg cfg' : Byte} {ops : List BatchOp} {made : List (Command × List Byte)} (f : Mutator)
      (rx : List Byte) (wf : f.wf 1 = true) (changed : (evalMutatorByte f cfg).1 ≠ cfg) (fits : rx.length = 2)
      (rest : BatchMakes p (evalMutatorByte f cfg).1 ops made cfg') :
      BatchMakes p cfg (.updateConfig f :: ops)
        ((.writeRegister p.ADDR_CONFIG 1 [(evalMutatorByte f cfg).1], rx) :: made) cfg'

/-- Two states that differ in nothing a rule reads: all is the same but the line levels (R16, R17), the
working registers (D42) and the record of what has happened (R13). -/
structure SameButUnread (s t : State) : Prop where
  params : s.params = t.params
  mode : s.mode = t.mode
  cfg : s.cfg = t.cfg
  live : s.live = t.live
  fault : s.fault = t.fault
  requests : s.requests = t.requests
  exchAnswers : s.exchAnswers = t.exchAnswers
  lineAnswers : s.lineAnswers = t.lineAnswers
  draws : s.draws = t.draws

/-! R9: renaming the errors, from a type `E` to a type `F`, wherever a state holds one. -/

def Answer.mapErrors {E F : Type} (f : E → F) : Answer E → Answer F
  | .ok rx => .ok rx
  | .err e => .err (f e)

def Event.mapErrors {E F : Type} (f : E → F) : Event E → Event F
  | .pinWrite l b => .pinWrite l b
  | .exchange tx r => .exchange tx (r.mapErrors f)

def OpOutcome.mapErrors {E F : Type} (f : E → F) : OpOutcome E → OpOutcome F
  | .ok v => .ok v
  | .wouldBlock => .wouldBlock
  | .transportFailure e => .transportFailure (f e)
  | .notConnected => .notConnected
  | .fault r => .fault r
  | .refused r => .refused r

def State.mapErrors {E F : Type} (f : E → F) (s : State E) : State F where
  params := s.params
  mode := s.mode
  cfg := s.cfg
  ce := s.ce
  csn := s.csn
  live := s.live
  fault := s.fault
  buf := s.buf
  len := s.len
  old := s.old
  new := s.new
  trace := s.trace.map (Event.mapErrors f)
  outcomes := s.outcomes.map (OpOutcome.mapErrors f)
  requests := s.requests
  exchAnswers := s.exchAnswers.map (Answer.mapErrors f)
  lineAnswers := s.lineAnswers
  draws := s.draws

end Sys2Proof.Machine
end

