-- ==== Sys2Proof/Certificates/Slice0/Obligations.lean ====
section
/-! DEFINITION. The statements.  Frames and register bytes are written with the names of the parameter
record (00_scope.md R8), which is an argument: `p`, or the record `s.params` of the block.  Its defaults are
general knowledge (log entry 1) and are written out only where a statement says so. -/

open Sys2Proof Sys2Proof.Machine

/-! ## Encoding -/

/-- Decode and encode agree, with any valid parameters: no bit of an encoding is dropped.  The operand layout of the host
operations is the model's own (log entry 2); the frames are those of R54 to R63. -/
def Obligations.DecodeInvertsEncode : Prop :=
  ∀ (p : Config.Params) (i : Instr), p.Valid → i.wf = true → decode p (encode p i) = .ok i

/-- R95: `|Encode(c)| = Len(c) = 1 + k`. -/
def Obligations.FrameLengthIsOnePlusOperand : Prop :=
  ∀ (p : Config.Params) (c : Command), c.wf = true →
    (encodeFrame p c).length = frameLen c ∧
    frameLen c =
      1 + (match c with
        | .readRegister _ w => w
        | .writeRegister _ w _ => w
        | .readRxPayload n => n
        | .writeTxPayload d => d.length
        | .readRxPayloadWidth => 1
        | .activate => 1
        | .flushTx => 0
        | .flushRx => 0)

/-- R55 and R62: the bytes of the register commands, and the rows of the opcode map as match and mask over
byte 0, with any valid parameters; and, as the model's choice, the six default opcodes (log entry 1). -/
def Obligations.OpcodeMapOfByteZero : Prop :=
  (∀ a : RegAddr,
    opcodeByte Config.DIR_READ a = a.setWidth 8 ∧ opcodeByte Config.DIR_WRITE a = 0x20#8 ||| a.setWidth 8 ∧
    addrOf (opcodeByte Config.DIR_READ a) = a ∧ addrOf (opcodeByte Config.DIR_WRITE a) = a) ∧
  (∀ (p : Config.Params) (b : Byte), p.Valid →
    (kindOf p b = some .readRegister ↔ b &&& 0xE0#8 = 0x00#8) ∧
    (kindOf p b = some .writeRegister ↔ b &&& 0xE0#8 = 0x20#8) ∧
    (kindOf p b = some .readRxPayload ↔ b = p.OP_R_RX_PAYLOAD) ∧
    (kindOf p b = some .readRxPayloadWidth ↔ b = p.OP_R_RX_PL_WID) ∧
    (kindOf p b = some .writeTxPayload ↔ b = p.OP_W_TX_PAYLOAD) ∧
    (kindOf p b = some .flushTx ↔ b = p.OP_FLUSH_TX) ∧
    (kindOf p b = some .flushRx ↔ b = p.OP_FLUSH_RX) ∧
    (kindOf p b = some .activate ↔ b = p.OP_ACTIVATE)) ∧
  Config.defaults.opcodes = [0x61#8, 0xA0#8, 0x60#8, 0xE1#8, 0xE2#8, 0x50#8]

/-- R63: what a frame decoder rejects, and that a frame it accepts has its command's length and an
operand in range; with any parameters. -/
def Obligations.FrameDecoderAcceptsExactly : Prop :=
  (∀ (p : Config.Params) (b : Byte) (data : List Byte),
    decodeFrame p (b :: data) = none ↔
      kindOf p b = none ∨
      ((kindOf p b = some .readRegister ∨ kindOf p b = some .writeRegister) ∧ ¬ (1 ≤ data.length ∧ data.length ≤ 5)) ∨
      ((kindOf p b = some .readRxPayload ∨ kindOf p b = some .writeTxPayload) ∧ 32 < data.length) ∨
      ((kindOf p b = some .flushTx ∨ kindOf p b = some .flushRx) ∧ data.length + 1 ≠ 1) ∨
      ((kindOf p b = some .readRxPayloadWidth ∨ kindOf p b = some .activate) ∧ data.length + 1 ≠ 2)) ∧
  (∀ (p : Config.Params) (frame : List Byte) (c : Command), decodeFrame p frame = some c →
    frameLen c = frame.length ∧ c.wfWire = true)

/-- Sanity: words of the opcode table and captured frames (95_test_vectors.md V2) decode to the
instructions they stand for.  The model's choices: the opcode bytes 0xA0, 0xE1 and 0x60, which are default
parameters (log entry 1); that the words 9 and 16 are read as host operations, though they are also byte 0
of register reads, and that select code 0 with no operand bytes is `construct` with R9's default batch
(log entry 2). -/
def Obligations.WrittenWordsDecode : Prop :=
  decode Config.defaults ⟨.wire, [0x3F#8, 0xAB#8]⟩ = .ok (.wireWriteRegister 0x1F#5 1 [0xAB#8]) ∧
  decode Config.defaults ⟨.wire, [0x17#8, 0x00#8]⟩ = .ok (.wireReadRegister 0x17#5 1) ∧
  decode Config.defaults ⟨.wire, [0xA0#8, 0xAA#8, 0xBB#8]⟩ = .ok (.wireWriteTxPayload [0xAA#8, 0xBB#8]) ∧
  decode Config.defaults ⟨.wire, [0xE1#8]⟩ = .ok .wireFlushTx ∧
  decode Config.defaults ⟨.wire, [0x60#8]⟩ = .error .rejectedFrame ∧
  decode Config.defaults ⟨.wire, [0x40#8]⟩ = .error .rejectedFrame ∧
  decodeTableWord 8 0b00001001 = some .enterRx ∧
  decodeTableWord 8 0b00010000 = some .clearInterrupts ∧
  decode Config.defaults ⟨.op, [0#8]⟩ = .ok (.construct []) ∧
  decode Config.defaults ⟨.op, [17#8]⟩ = .error .unknownOperation

/-! ## Register model and operands -/

/-- R73 and R74: a field read is the unsigned value of the field's bits; a field write changes those bits and
no other, and obeys the three laws of R74. -/
def Obligations.FieldReadWriteLaws : Prop :=
  ∀ (b x : Byte) (hi lo : Nat), lo ≤ hi → hi ≤ 7 → x.toNat < 2 ^ (hi - lo + 1) →
    (get b hi lo).toNat = b.toNat / 2 ^ lo % 2 ^ (hi - lo + 1) ∧
    get (set b hi lo x) hi lo = x ∧
    set b hi lo (get b hi lo) = b ∧
    (∀ k, k < lo ∨ hi < k → (set b hi lo x).getLsbD k = b.getLsbD k) ∧
    (∀ (y : Byte) (hi' lo' : Nat), lo' ≤ hi' → hi' ≤ 7 → hi < lo' ∨ hi' < lo →
      set (set b hi lo x) hi' lo' y = set (set b hi' lo' y) hi lo x)

/-- R78 to R81: each accessor reads its bits, wherever the parameters put them, and the two STATUS
constants set exactly the flags they clear.  As the model's choice, the default positions (log entry 1) give
the constants the values 0x30 and 0x70. -/
def Obligations.AccessorsReadTheirBits : Prop :=
  (∀ p : Config.Params, p.Valid →
    (∀ s : Byte,
      rxDr p s = s.getLsbD p.ST_RX_DR ∧ txDs p s = s.getLsbD p.ST_TX_DS ∧ maxRt p s = s.getLsbD p.ST_MAX_RT ∧
      rxPNo p s = s.extractLsb' p.ST_RX_P_NO.lo 3 ∧ stTxFull p s = s.getLsbD p.ST_TX_FULL) ∧
    (∀ c : Byte,
      primRx p c = c.getLsbD p.CFG_PRIM_RX ∧ pwrUp p c = c.getLsbD p.CFG_PWR_UP ∧ crco p c = c.getLsbD p.CFG_CRCO ∧
      enCrc p c = c.getLsbD p.CFG_EN_CRC ∧ maskMaxRt p c = c.getLsbD p.CFG_MASK_MAX_RT ∧
      maskTxDs p c = c.getLsbD p.CFG_MASK_TX_DS ∧ maskRxDr p c = c.getLsbD p.CFG_MASK_RX_DR) ∧
    (∀ a : Byte, aw p a = a.extractLsb' p.AW_FIELD.lo 2 ∧ (plausibleAw a = true ↔ a.extractLsb' 2 6 = 0#6)) ∧
    (∀ f : Byte,
      rxEmpty p f = f.getLsbD p.FS_RX_EMPTY ∧ rxFull p f = f.getLsbD p.FS_RX_FULL ∧ txEmpty p f = f.getLsbD p.FS_TX_EMPTY ∧
      txFull p f = f.getLsbD p.FS_TX_FULL ∧ txReuse p f = f.getLsbD p.FS_TX_REUSE) ∧
    (∀ k < 8,
      ((stClearTx p).getLsbD k = true ↔ k = p.ST_TX_DS ∨ k = p.ST_MAX_RT) ∧
      ((stClearAll p).getLsbD k = true ↔ k = p.ST_TX_DS ∨ k = p.ST_MAX_RT ∨ k = p.ST_RX_DR))) ∧
  stClearTx Config.defaults = 0x30#8 ∧ stClearAll Config.defaults = 0x70#8

/-- R99 (and log entry 9): the mutators of width `w` are functions from `w` bytes to `w` bytes, and every
such function is the meaning of one of them. -/
def Obligations.MutatorsExpressEveryFunction : Prop :=
  ∀ w : Nat, widthOk w = true →
    (∀ (m : Mutator) (v : List Byte), m.wf w = true → v.length = w → (evalMutator m v).1.length = w) ∧
    (∀ f : List Byte → List Byte × MutResult, (∀ v, v.length = w → (f v).1.length = w) →
      ∃ m : Mutator, m.wf w = true ∧ ∀ v, v.length = w → evalMutator m v = f v)

/-- R8 and R153: with any valid parameters the initial cache is the reset pattern with the three mask bits
cleared and every other bit kept, by the formula of R153 and by the setters of R152 alike.  As the model's
choice the defaults (log entry 1), which meet R8's constraints and give 0x08; and two other records with the
values of 95_test_vectors.md V1, as valid and with a meaning of their own. -/
def Obligations.ParametersAreValid : Prop :=
  (∀ p : Config.Params, p.Valid →
    initialCfg p = constructCfg p ∧ (State.resetWith p : State).cfg = initialCfg p ∧
    maskRxDr p (initialCfg p) = false ∧ maskTxDs p (initialCfg p) = false ∧ maskMaxRt p (initialCfg p) = false ∧
    ∀ k, k ≠ p.CFG_MASK_RX_DR → k ≠ p.CFG_MASK_TX_DS → k ≠ p.CFG_MASK_MAX_RT →
      (initialCfg p).getLsbD k = p.CONFIG_RESET.getLsbD k) ∧
  Config.defaults.Valid ∧ initialCfg Config.defaults = 0x08#8 ∧
  Config.Params.Valid { CONFIG_RESET := 0x78#8 } ∧ initialCfg { CONFIG_RESET := 0x78#8 } = 0x08#8 ∧
  Config.Params.Valid { CONFIG_RESET := 0xFF#8 } ∧ initialCfg { CONFIG_RESET := 0xFF#8 } = 0x8F#8

/-- R18, R19, R151: before any `construct` a block, with whatever parameters, is neither live nor faulted and
nothing has happened.  The model's choices: the reset values of R14 to R17 and of the working registers
stand from the start (log entries 6 and 7), and the host's machine starts with the default parameters (log
entry 1). -/
def Obligations.ResetIsNotLive : Prop :=
  (∀ p : Config.Params, ∃ s : State, s = State.resetWith p ∧ s.params = p ∧
    s.live = false ∧ s.fault = false ∧ s.trace = [] ∧ s.outcomes = [] ∧
    s.mode = .standby ∧ s.cfg = initialCfg p ∧ s.ce = false ∧ s.csn = true ∧
    s.buf = List.replicate 33 0x00#8 ∧ s.len = 1 ∧ s.old = [0x00#8] ∧ s.new = [0x00#8]) ∧
  State.reset = State.resetWith Config.defaults

/-! ## The host port and the step -/

/-- R136: the host port's own answers change no state and perform no event. -/
def Obligations.HostPortRefusals : Prop :=
  (∀ (i : Instr) (s : State), (∀ batch, i ≠ .construct batch) → s.live = false ∨ s.fault = true →
    exec i s = .next { s with outcomes := s.outcomes ++ [.refused .notLive] }) ∧
  (∀ (s : State) (sel : Byte) (operands : List Byte) (rest : List Request),
    s.requests = ⟨.op, sel :: operands⟩ :: rest → 16 < sel.toNat →
    step s = .next { s with requests := rest, outcomes := s.outcomes ++ [.refused .unknownOperation] })

/-- A step takes the next request and is `exec` of what it decodes to; what the spec calls not
representable stops by name; with no request the block does nothing (R3). -/
def Obligations.StepServesTheNextRequest : Prop :=
  (∀ (s : State) (r : Request) (rest : List Request) (i : Instr), s.requests = r :: rest → decode s.params r = .ok i →
    step s = exec i { s with requests := rest }) ∧
  (∀ (s : State) (r : Request) (rest : List Request), s.requests = r :: rest → decode s.params r = .error .malformedOperands →
    step s = .refused .malformedRequest) ∧
  (∀ (s : State) (r : Request) (rest : List Request), s.requests = r :: rest → decode s.params r = .error .rejectedFrame →
    step s = .refused .rejectedFrame) ∧
  (∀ s : State, s.requests = [] → step s = .next s)

/-- R12, R48 (b), R175: every operation ends, with exactly one outcome, and only adds to the trace; it makes no
request of its own, and leaves the block's parameters alone (R8). -/
def Obligations.OneOutcomePerOperation : Prop :=
  ∀ (i : Instr) (s : State), ∃ (t : State) (o : OpOutcome) (events : List Event),
    exec i s = .next t ∧ t.outcomes = s.outcomes ++ [o] ∧ t.trace = s.trace ++ events ∧ t.requests = s.requests ∧
    t.params = s.params

/-- R175: an operation other than `construct` makes at most 5 transactions and 3 CE writes. -/
def Obligations.AtMostFiveTransactions : Prop :=
  ∀ (i : Instr) (s t : State) (events : List Event), (∀ batch, i ≠ .construct batch) →
    exec i s = .next t → t.trace = s.trace ++ events →
    exchanges events ≤ 5 ∧ events.countP Event.isCeWrite ≤ 3

/-! ## Wire commands -/

/-- R56: frame `[op]`, response `[status]`, result `()`. -/
def Obligations.OpcodeOnlyCommandsComplete : Prop :=
  ∀ (s : State) (st : Byte), Ready s → Answers s 2 [.ok [st]] →
    CompletesAs .wireFlushTx s [s.params.OP_FLUSH_TX] [st] (.ok (.command st .unit)) ∧
    CompletesAs .wireFlushRx s [s.params.OP_FLUSH_RX] [st] (.ok (.command st .unit)) ∧
    CompletesAs (.sendCommand .flushTx) s [s.params.OP_FLUSH_TX] [st] (.ok (.command st .unit)) ∧
    CompletesAs (.sendCommand .flushRx) s [s.params.OP_FLUSH_RX] [st] (.ok (.command st .unit))

/-- R57: a register read sends the address and dummies and answers the bytes received; a register write
sends `0x20 | addr` and the value. -/
def Obligations.RegisterCommandsComplete : Prop :=
  ∀ (s : State) (a : RegAddr) (w : Nat) (st : Byte) (data : List Byte), 1 ≤ w → w ≤ 5 → data.length = w →
    Ready s → Answers s 2 [.ok (st :: data)] →
    CompletesAs (.wireReadRegister a w) s (a.setWidth 8 :: List.replicate w Config.DUMMY_BYTE) (st :: data)
      (.ok (.command st (.register data))) ∧
    CompletesAs (.sendCommand (.readRegister a w)) s (a.setWidth 8 :: List.replicate w Config.DUMMY_BYTE) (st :: data)
      (.ok (.command st (.register data))) ∧
    (∀ v : List Byte, v.length = w →
      CompletesAs (.wireWriteRegister a w v) s ((0x20#8 ||| a.setWidth 8) :: v) (st :: data) (.ok (.command st .unit)) ∧
      CompletesAs (.sendCommand (.writeRegister a w v)) s ((0x20#8 ||| a.setWidth 8) :: v) (st :: data)
        (.ok (.command st .unit)))

/-- R58 (with R65: also for length 0): the payload commands. -/
def Obligations.PayloadCommandsComplete : Prop :=
  ∀ (s : State) (d : List Byte) (st : Byte) (data : List Byte), d.length ≤ 32 → data.length = d.length →
    Ready s → Answers s 2 [.ok (st :: data)] →
    CompletesAs (.wireReadRxPayload d.length) s
      (s.params.OP_R_RX_PAYLOAD :: List.replicate d.length Config.DUMMY_BYTE) (st :: data)
      (.ok (.command st (.payload data))) ∧
    CompletesAs (.sendCommand (.readRxPayload d.length)) s
      (s.params.OP_R_RX_PAYLOAD :: List.replicate d.length Config.DUMMY_BYTE) (st :: data)
      (.ok (.command st (.payload data))) ∧
    CompletesAs (.wireWriteTxPayload d) s (s.params.OP_W_TX_PAYLOAD :: d) (st :: data) (.ok (.command st .unit)) ∧
    CompletesAs (.sendCommand (.writeTxPayload d)) s (s.params.OP_W_TX_PAYLOAD :: d) (st :: data)
      (.ok (.command st .unit))

/-- R59: ReadRxPayloadWidth and Activate. -/
def Obligations.OneByteCommandsComplete : Prop :=
  ∀ (s : State) (st x : Byte), Ready s → Answers s 2 [.ok [st, x]] →
    CompletesAs .wireReadRxPayloadWidth s [s.params.OP_R_RX_PL_WID, Config.DUMMY_BYTE] [st, x]
      (.ok (.command st (.width x))) ∧
    CompletesAs (.sendCommand .readRxPayloadWidth) s [s.params.OP_R_RX_PL_WID, Config.DUMMY_BYTE] [st, x]
      (.ok (.command st (.width x))) ∧
    CompletesAs .wireActivate s [s.params.OP_ACTIVATE, s.params.ACTIVATE_KEY] [st, x] (.ok (.command st .unit)) ∧
    CompletesAs (.sendCommand .activate) s [s.params.OP_ACTIVATE, s.params.ACTIVATE_KEY] [st, x]
      (.ok (.command st .unit))

/-! ## The Transport -/

/-- R100 (and R96, R135): `send_command` of every command, and every wire command, in every way a
transaction can end: too long, answered, failed, and at a failing line write. -/
def Obligations.TransactionEndsAsTheRuleSays : Prop :=
  ∀ (c : Command) (i : Instr) (s : State), i = .sendCommand c ∨ i = Instr.ofCommand c → Ready s → c.wf = true →
    (33 < frameLen c → FaultsAtOnce i s .payloadTooLong) ∧
    (frameLen c ≤ 33 →
      (∀ (st : Byte) (data : List Byte), 1 + data.length = frameLen c → Answers s 2 [.ok (st :: data)] →
        CompletesAs i s (encodeFrame s.params c) (st :: data) (.ok (.command st (resultOf c data)))) ∧
      (∀ e : TransportError, Answers s 2 [.err e] → EndsWithBusError i s (encodeFrame s.params c) e) ∧
      EndsAtFailedLineWrite i s (encodeFrame s.params c))

/-- R101: `write_register` answers Status only; `cfg` stays even when the register is CONFIG.  It has the
faults of its transaction. -/
def Obligations.WriteRegisterCompletes : Prop :=
  ∀ (s : State) (a : RegAddr) (w : Nat) (v : List Byte), 1 ≤ w → w ≤ 5 → v.length = w → Ready s →
    (∀ (st : Byte) (data : List Byte), data.length = w → Answers s 2 [.ok (st :: data)] →
      CompletesAs (.writeRegister a w v) s (encodeFrame s.params (.writeRegister a w v)) (st :: data) (.ok (.status st))) ∧
    (∀ e : TransportError, Answers s 2 [.err e] →
      EndsWithBusError (.writeRegister a w v) s (encodeFrame s.params (.writeRegister a w v)) e) ∧
    EndsAtFailedLineWrite (.writeRegister a w v) s (encodeFrame s.params (.writeRegister a w v))

/-- R102: `read_register` answers Status and the register's `w` bytes.  It has the faults of its
transaction. -/
def Obligations.ReadRegisterCompletes : Prop :=
  ∀ (s : State) (a : RegAddr) (w : Nat), 1 ≤ w → w ≤ 5 → Ready s →
    (∀ (st : Byte) (data : List Byte), data.length = w → Answers s 2 [.ok (st :: data)] →
      CompletesAs (.readRegister a w) s (encodeFrame s.params (.readRegister a w)) (st :: data) (.ok (.register st data))) ∧
    (∀ e : TransportError, Answers s 2 [.err e] →
      EndsWithBusError (.readRegister a w) s (encodeFrame s.params (.readRegister a w)) e) ∧
    EndsAtFailedLineWrite (.readRegister a w) s (encodeFrame s.params (.readRegister a w))

/-- R103: `update_register` faults on CONFIG before any event; elsewhere it reads, applies the mutator
once, and writes if and only if the value changed; an error of the read leaves the mutator unapplied,
an error of the write loses its result. -/
def Obligations.UpdateRegisterCompletes : Prop :=
  ∀ (s : State) (a : RegAddr) (w : Nat) (f : Mutator), 1 ≤ w → w ≤ 5 → f.wf w = true → Ready s →
    (a = s.params.ADDR_CONFIG → FaultsAtOnce (.updateRegister a w f) s .configViaUpdateRegister) ∧
    (a ≠ s.params.ADDR_CONFIG →
      (∀ e : TransportError, Answers s 2 [.err e] →
        EndsWithBusError (.updateRegister a w f) s (encodeFrame s.params (.readRegister a w)) e) ∧
      (∀ (st : Byte) (old : List Byte), old.length = w →
        let new := (evalMutator f old).1
        let s1 := { s.afterTransaction (encodeFrame s.params (.readRegister a w)) (st :: old) with old := old, new := new }
        (Answers s 2 [.ok (st :: old)] → new = old →
          exec (.updateRegister a w f) s =
            .next { s1 with outcomes := s.outcomes ++ [.ok (.mutator (evalMutator f old).2)] }) ∧
        (∀ rx : List Byte, rx.length = 1 + w → Answers s 4 [.ok (st :: old), .ok rx] → new ≠ old →
          exec (.updateRegister a w f) s =
            .next { s1.afterTransaction (encodeFrame s.params (.writeRegister a w new)) rx with
              outcomes := s.outcomes ++ [.ok (.mutator (evalMutator f old).2)] }) ∧
        (∀ e : TransportError, Answers s 4 [.ok (st :: old), .err e] → new ≠ old →
          exec (.updateRegister a w f) s =
            .next { s1.afterFailedTransaction (encodeFrame s.params (.writeRegister a w new)) e with
              outcomes := s.outcomes ++ [.transportFailure e] })))

/-- R104: `update_config` mutates the cache itself, never reads the bus, writes if and only if the value
changed, and keeps the mutated value when the write fails. -/
def Obligations.UpdateConfigCompletes : Prop :=
  ∀ (s : State) (f : Mutator), f.wf 1 = true → Ready s →
    let new := (evalMutatorByte f s.cfg).1
    let s1 := { s with cfg := new, old := [s.cfg], new := [new] }
    (new = s.cfg →
      exec (.updateConfig f) s = .next { s1 with outcomes := s.outcomes ++ [.ok (.mutator (evalMutatorByte f s.cfg).2)] }) ∧
    (∀ rx : List Byte, rx.length = 2 → Answers s 2 [.ok rx] → new ≠ s.cfg →
      exec (.updateConfig f) s =
        .next { s1.afterTransaction (configFrame s.params new) rx with
          outcomes := s.outcomes ++ [.ok (.mutator (evalMutatorByte f s.cfg).2)] }) ∧
    (∀ e : TransportError, Answers s 2 [.err e] → new ≠ s.cfg →
      exec (.updateConfig f) s =
        .next { s1.afterFailedTransaction (configFrame s.params new) e with outcomes := s.outcomes ++ [.transportFailure e] })

/-- R109: how many exchanges the two read-modify-write helpers contribute to the trace, when no line
write fails: for `update_register` one or two, and two, once its read is answered, exactly when the
mutator changes the value. -/
def Obligations.WritesOnlyWhatChanged : Prop :=
  (∀ (s t : State) (f : Mutator) (events : List Event), Ready s → exec (.updateConfig f) s = .next t →
    t.trace = s.trace ++ events → t.fault = false →
    exchanges events = if (evalMutatorByte f s.cfg).1 = s.cfg then 0 else 1) ∧
  (∀ (s t : State) (a : RegAddr) (w : Nat) (f : Mutator) (events : List Event), Ready s →
    exec (.updateRegister a w f) s = .next t → t.trace = s.trace ++ events → t.fault = false →
    exchanges events = 1 ∨ exchanges events = 2) ∧
  (∀ (s t : State) (a : RegAddr) (w : Nat) (f : Mutator) (st : Byte) (old : List Byte) (events : List Event), Ready s →
    1 ≤ w → w ≤ 5 → old.length = w → Answers s 2 [.ok (st :: old)] →
    exec (.updateRegister a w f) s = .next t → t.trace = s.trace ++ events → t.fault = false →
    exchanges events = if (evalMutator f old).1 = old then 1 else 2)

/-- R105: `is_connected` compares the whole SETUP_AW byte with 3. -/
def Obligations.IsConnectedCompletes : Prop :=
  ∀ s : State, Ready s →
    (∀ st v : Byte, Answers s 2 [.ok [st, v]] →
      CompletesAs .isConnected s (encodeFrame s.params (.readRegister s.params.ADDR_SETUP_AW 1)) [st, v]
        (.ok (.bool (decide (v.toNat ≤ 3))))) ∧
    (∀ e : TransportError, Answers s 2 [.err e] →
      EndsWithBusError .isConnected s (encodeFrame s.params (.readRegister s.params.ADDR_SETUP_AW 1)) e)

/-- R106 and R107: `ce_enable` and `ce_disable` write their level, whatever CE holds, and touch nothing
else; a failed line write is a fault. -/
def Obligations.CeLineOperationsComplete : Prop :=
  ∀ (s : State) (i : Instr) (level : Bool), (i = .ceEnable ∧ level = true) ∨ (i = .ceDisable ∧ level = false) → Ready s →
    (∀ rest, s.lineAnswers = true :: rest →
      exec i s = .next { s with
        ce := level, trace := s.trace ++ [.pinWrite .ce level], outcomes := s.outcomes ++ [.ok .unit], lineAnswers := rest }) ∧
    (∀ rest, s.lineAnswers = false :: rest →
      exec i s = .next { s with
        ce := level, trace := s.trace ++ [.pinWrite .ce level], fault := true,
        outcomes := s.outcomes ++ [.fault (.lineWriteFailed .ce)], lineAnswers := rest })

/-! ## The mode machine -/

/-- R112, R113, R121: the successful transitions, from every mode, with their events in order: nothing
where the mode is current; else CE low, CONFIG with `PRIM_RX` clear (if that changes it); and for Rx the
FIFO_STATUS poll, CE low, CE high, CONFIG with `PRIM_RX` set. -/
def Obligations.ModeTransitionsComplete : Prop :=
  ∀ s : State, Ready s →
    (s.mode = .tx → exec .enterTx s = .next { s with outcomes := s.outcomes ++ [.ok .unit] }) ∧
    (s.mode = .rx → exec .enterRx s = .next { s with outcomes := s.outcomes ++ [.ok .unit] }) ∧
    (∀ rx0 : List Byte, rx0.length = 2 → s.mode ≠ .tx → Answers s (txLines s rx0) (txAnswers s rx0) →
      ∃ t, exec .enterTx s = .next t ∧
        Leaves s t .tx (setPrimRx s.params s.cfg false) false
          (.pinWrite .ce false :: configWrite s.params s.cfg (setPrimRx s.params s.cfg false) rx0)
          (.ok .unit) (txLines s rx0) (txAnswers s rx0).length) ∧
    (∀ (rx0 rx1 : List Byte) (st f : Byte), rx0.length = 2 → rx1.length = 2 → s.mode ≠ .rx →
      maxRt s.params st = false → txEmpty s.params f = true → Answers s (rxLines s rx0 rx1) (rxAnswers s rx0 [st, f] rx1) →
      ∃ t, exec .enterRx s = .next t ∧
        Leaves s t .rx (rxCfg s) true (rxEvents s rx0 [st, f] rx1) (.ok .unit) (rxLines s rx0 rx1)
          (rxAnswers s rx0 [st, f] rx1).length)

/-- R112, R113, R121: where a transition does not arrive: the CONFIG write of `enter_tx` fails; and in
`enter_rx` the TX FIFO is not empty (`WouldBlock`, mode Tx, CE not raised), or the FIFO_STATUS read or the
last CONFIG write fails.  CE, the cache and the mode are as R165's table has them. -/
def Obligations.TransitionsEndEarly : Prop :=
  (∀ (s : State) (i : Instr) (e : TransportError), Ready s → s.mode ≠ .tx → txCfg s ≠ s.cfg →
    i = .enterTx ∨ (i = .enterRx ∧ s.mode ≠ .rx) → Answers s 3 [.err e] →
    ∃ t, exec i s = .next t ∧
      Leaves s t s.mode (txCfg s) false (.pinWrite .ce false :: transactionEvents (configFrame s.params (txCfg s)) (.err e))
        (.transportFailure e) 3 1) ∧
  ∀ (s : State) (rx0 : List Byte), Ready s → s.mode ≠ .rx → rx0.length = 2 →
    (∀ st f : Byte, maxRt s.params st = false → txEmpty s.params f = false →
      Answers s (txLines s rx0 + 2) (txAnswers s rx0 ++ [.ok [st, f]]) →
      ∃ t, exec .enterRx s = .next t ∧
        Leaves s t .tx (txCfg s) (txCe s) (txEvents s rx0 ++ transactionEvents (pollFrame s.params) (.ok [st, f])) .wouldBlock
          (txLines s rx0 + 2) ((txAnswers s rx0).length + 1)) ∧
    (∀ e : TransportError, Answers s (txLines s rx0 + 2) (txAnswers s rx0 ++ [.err e]) →
      ∃ t, exec .enterRx s = .next t ∧
        Leaves s t .tx (txCfg s) (txCe s) (txEvents s rx0 ++ transactionEvents (pollFrame s.params) (.err e)) (.transportFailure e)
          (txLines s rx0 + 2) ((txAnswers s rx0).length + 1)) ∧
    (∀ (st f : Byte) (e : TransportError), maxRt s.params st = false → txEmpty s.params f = true → rxCfg s ≠ txCfg s →
      Answers s (txLines s rx0 + 6) (txAnswers s rx0 ++ [.ok [st, f], .err e]) →
      ∃ t, exec .enterRx s = .next t ∧
        Leaves s t .tx (rxCfg s) true
          (txEvents s rx0 ++ transactionEvents (pollFrame s.params) (.ok [st, f]) ++ [.pinWrite .ce false, .pinWrite .ce true] ++
            transactionEvents (configFrame s.params (rxCfg s)) (.err e))
          (.transportFailure e) (txLines s rx0 + 6) ((txAnswers s rx0).length + 2))

/-- R126: a transition that does not end with `Ok` has not performed its assignment of `mode`; what may
have happened is the nested transition into Tx. -/
def Obligations.FailedTransitionsKeepMode : Prop :=
  (∀ (s t : State) (o : OpOutcome), exec .enterTx s = .next t → t.outcomes = s.outcomes ++ [o] → o ≠ .ok .unit →
    t.mode = s.mode) ∧
  (∀ (s t : State) (o : OpOutcome), exec .enterRx s = .next t → t.outcomes = s.outcomes ++ [o] → o ≠ .ok .unit →
    t.mode = s.mode ∨ t.mode = .tx)

/-- R164 (with R143 and R147): a CONFIG write that failed is not made up for.  The first `enter_tx` leaves
the cache ahead of the chip; the second finds nothing to write, lowers CE and reports Tx. -/
def Obligations.FailedConfigWriteIsNotRepeated : Prop :=
  ∀ (s : State) (e : TransportError), Ready s → s.mode ≠ .tx → txCfg s ≠ s.cfg → Answers s 4 [.err e] →
    ∃ t u, exec .enterTx s = .next t ∧ exec .enterTx t = .next u ∧
      t.mode = s.mode ∧ t.cfg = setPrimRx s.params s.cfg false ∧ u.mode = .tx ∧
      u.cfg = setPrimRx s.params s.cfg false ∧ u.ce = false ∧
      u.trace = s.trace ++ (.pinWrite .ce false :: transactionEvents (configFrame s.params (setPrimRx s.params s.cfg false)) (.err e) ++
        [.pinWrite .ce false]) ∧
      u.outcomes = s.outcomes ++ [.transportFailure e, .ok .unit]

/-- R114: `send` ensures Tx, writes the packet, then raises CE; a packet of more than 32 bytes faults
before any event; a bus error leaves CE unraised. -/
def Obligations.SendCompletes : Prop :=
  ∀ (s : State) (packet : List Byte), Ready s →
    (32 < packet.length → FaultsAtOnce (.send packet) s .payloadTooLong) ∧
    (packet.length ≤ 32 → ∀ rx0 : List Byte, rx0.length = 2 →
      (∀ rx : List Byte, rx.length = 1 + packet.length →
        Answers s (txLines s rx0 + 3) (txAnswers s rx0 ++ [.ok rx]) →
        ∃ t, exec (.send packet) s = .next t ∧
          Leaves s t .tx (txCfg s) true
            (txEvents s rx0 ++ transactionEvents (s.params.OP_W_TX_PAYLOAD :: packet) (.ok rx) ++ [.pinWrite .ce true])
            (.ok .unit) (txLines s rx0 + 3) ((txAnswers s rx0).length + 1)) ∧
      (∀ e : TransportError, Answers s (txLines s rx0 + 2) (txAnswers s rx0 ++ [.err e]) →
        ∃ t, exec (.send packet) s = .next t ∧
          Leaves s t .tx (txCfg s) (txCe s)
            (txEvents s rx0 ++ transactionEvents (s.params.OP_W_TX_PAYLOAD :: packet) (.err e))
            (.transportFailure e) (txLines s rx0 + 2) ((txAnswers s rx0).length + 1)) ∧
      (∀ e : TransportError, s.mode ≠ .tx → txCfg s ≠ s.cfg → Answers s 3 [.err e] →
        ∃ t, exec (.send packet) s = .next t ∧
          Leaves s t s.mode (txCfg s) false (.pinWrite .ce false :: transactionEvents (configFrame s.params (txCfg s)) (.err e))
            (.transportFailure e) 3 1))

/-- R115: `wait_tx_ready` ensures Tx and makes one poll of the full flag, when `MAX_RT` is clear. -/
def Obligations.WaitTxReadyCompletes : Prop :=
  ∀ (s : State) (rx0 : List Byte), Ready s → rx0.length = 2 →
    (∀ st f : Byte, maxRt s.params st = false → Answers s (txLines s rx0 + 2) (txAnswers s rx0 ++ [.ok [st, f]]) →
      ∃ t, exec .waitTxReady s = .next t ∧
        Leaves s t .tx (txCfg s) (txCe s) (txEvents s rx0 ++ transactionEvents (pollFrame s.params) (.ok [st, f]))
          (if txFull s.params f = true then .wouldBlock else .ok .unit) (txLines s rx0 + 2) ((txAnswers s rx0).length + 1)) ∧
    (∀ e : TransportError, Answers s (txLines s rx0 + 2) (txAnswers s rx0 ++ [.err e]) →
      ∃ t, exec .waitTxReady s = .next t ∧
        Leaves s t .tx (txCfg s) (txCe s) (txEvents s rx0 ++ transactionEvents (pollFrame s.params) (.err e)) (.transportFailure e)
          (txLines s rx0 + 2) ((txAnswers s rx0).length + 1))

/-- R116: `wait_tx_empty` ensures Tx, makes one poll of the empty flag when `MAX_RT` is clear, and lowers
CE only when it is set. -/
def Obligations.WaitTxEmptyCompletes : Prop :=
  ∀ (s : State) (rx0 : List Byte) (st f : Byte), Ready s → rx0.length = 2 → maxRt s.params st = false →
    (txEmpty s.params f = true → Answers s (txLines s rx0 + 3) (txAnswers s rx0 ++ [.ok [st, f]]) →
      ∃ t, exec .waitTxEmpty s = .next t ∧
        Leaves s t .tx (txCfg s) false
          (txEvents s rx0 ++ transactionEvents (pollFrame s.params) (.ok [st, f]) ++ [.pinWrite .ce false])
          (.ok .unit) (txLines s rx0 + 3) ((txAnswers s rx0).length + 1)) ∧
    (txEmpty s.params f = false → Answers s (txLines s rx0 + 2) (txAnswers s rx0 ++ [.ok [st, f]]) →
      ∃ t, exec .waitTxEmpty s = .next t ∧
        Leaves s t .tx (txCfg s) (txCe s) (txEvents s rx0 ++ transactionEvents (pollFrame s.params) (.ok [st, f])) .wouldBlock
          (txLines s rx0 + 2) ((txAnswers s rx0).length + 1))

/-- R120, R141 (c): with `MAX_RT` set in the poll's Status the two TX polls, and `enter_rx` that nests one, discard the stuck packet
whatever the FIFO flags say: FlushTx, then the STATUS write, then `WouldBlock` with CE as it was; if
FlushTx fails the STATUS write is not attempted. -/
def Obligations.DiscardStepRuns : Prop :=
  ∀ (i : Instr) (s : State) (rx0 : List Byte) (st f : Byte),
    i = .waitTxReady ∨ i = .waitTxEmpty ∨ (i = .enterRx ∧ s.mode ≠ .rx) → Ready s → rx0.length = 2 →
    maxRt s.params st = true →
    (∀ (st1 : Byte) (rx2 : List Byte), rx2.length = 2 →
      Answers s (txLines s rx0 + 6) (txAnswers s rx0 ++ [.ok [st, f], .ok [st1], .ok rx2]) →
      ∃ t, exec i s = .next t ∧
        Leaves s t .tx (txCfg s) (txCe s)
          (txEvents s rx0 ++ transactionEvents (pollFrame s.params) (.ok [st, f]) ++ discardEvents s.params [st1] rx2)
          .wouldBlock (txLines s rx0 + 6) ((txAnswers s rx0).length + 3)) ∧
    (∀ e : TransportError, Answers s (txLines s rx0 + 4) (txAnswers s rx0 ++ [.ok [st, f], .err e]) →
      ∃ t, exec i s = .next t ∧
        Leaves s t .tx (txCfg s) (txCe s)
          (txEvents s rx0 ++ transactionEvents (pollFrame s.params) (.ok [st, f]) ++
            transactionEvents (encodeFrame s.params .flushTx) (.err e))
          (.transportFailure e) (txLines s rx0 + 4) ((txAnswers s rx0).length + 2)) ∧
    (∀ (st1 : Byte) (e : TransportError),
      Answers s (txLines s rx0 + 6) (txAnswers s rx0 ++ [.ok [st, f], .ok [st1], .err e]) →
      ∃ t, exec i s = .next t ∧
        Leaves s t .tx (txCfg s) (txCe s)
          (txEvents s rx0 ++ transactionEvents (pollFrame s.params) (.ok [st, f]) ++
            transactionEvents (encodeFrame s.params .flushTx) (.ok [st1]) ++
            transactionEvents (statusFrame s.params (stClearTx s.params)) (.err e))
          (.transportFailure e) (txLines s rx0 + 6) ((txAnswers s rx0).length + 3))

/-- R117: `wait_rx_ready` ensures Rx and makes one poll: `WouldBlock` when the RX FIFO is empty, else the
pipe number of the same transaction's Status, unchecked. -/
def Obligations.WaitRxReadyCompletes : Prop :=
  ∀ (s : State) (rx0 rx1 : List Byte) (st0 f0 st f : Byte), Ready s → rx0.length = 2 → rx1.length = 2 →
    maxRt s.params st0 = false → txEmpty s.params f0 = true →
    Answers s (rxLines s rx0 rx1 + 2) (rxAnswers s rx0 [st0, f0] rx1 ++ [.ok [st, f]]) →
    ∃ t, exec .waitRxReady s = .next t ∧
      Leaves s t .rx (rxCfg s) (rxCe s) (rxEvents s rx0 [st0, f0] rx1 ++ transactionEvents (pollFrame s.params) (.ok [st, f]))
        (if rxEmpty s.params f = true then .wouldBlock else .ok (.pipe (rxPNo s.params st))) (rxLines s rx0 rx1 + 2)
        ((rxAnswers s rx0 [st0, f0] rx1).length + 1)

/-- R118: `read` ensures Rx, reads the width, then a payload of that many bytes; a width above 32 faults
after the width transaction and before any other. -/
def Obligations.ReadCompletes : Prop :=
  ∀ (s : State) (rx0 rx1 : List Byte) (st0 f0 st width : Byte), Ready s → rx0.length = 2 → rx1.length = 2 →
    maxRt s.params st0 = false → txEmpty s.params f0 = true →
    (∀ (st1 : Byte) (payload : List Byte), width.toNat ≤ 32 → payload.length = width.toNat →
      Answers s (rxLines s rx0 rx1 + 4) (rxAnswers s rx0 [st0, f0] rx1 ++ [.ok [st, width], .ok (st1 :: payload)]) →
      ∃ t, exec .read s = .next t ∧
        Leaves s t .rx (rxCfg s) (rxCe s)
          (rxEvents s rx0 [st0, f0] rx1 ++ transactionEvents (encodeFrame s.params .readRxPayloadWidth) (.ok [st, width]) ++
            transactionEvents (encodeFrame s.params (.readRxPayload width.toNat)) (.ok (st1 :: payload)))
          (.ok (.payload payload)) (rxLines s rx0 rx1 + 4) ((rxAnswers s rx0 [st0, f0] rx1).length + 2)) ∧
    (32 < width.toNat → Answers s (rxLines s rx0 rx1 + 2) (rxAnswers s rx0 [st0, f0] rx1 ++ [.ok [st, width]]) →
      ∃ t, exec .read s = .next t ∧ t.fault = true ∧ t.live = true ∧ t.mode = .rx ∧
        t.trace = s.trace ++ rxEvents s rx0 [st0, f0] rx1 ++
          transactionEvents (encodeFrame s.params .readRxPayloadWidth) (.ok [st, width]) ∧
        t.outcomes = s.outcomes ++ [.fault .payloadTooLong])

/-- R119: `clear_interrupts` writes 1 to the three flags and discards Status. -/
def Obligations.ClearInterruptsCompletes : Prop :=
  ∀ s : State, Ready s →
    (∀ rx : List Byte, rx.length = 2 → Answers s 2 [.ok rx] →
      CompletesAs .clearInterrupts s (statusFrame s.params (stClearAll s.params)) rx (.ok .unit)) ∧
    (∀ e : TransportError, Answers s 2 [.err e] →
      EndsWithBusError .clearInterrupts s (statusFrame s.params (stClearAll s.params)) e)

/-! ## Construction -/

/-- R152, R154 with an empty batch: from every state, the two pin writes, the connectivity read, and the
reset values of R32. -/
def Obligations.ConstructCompletes : Prop :=
  ∀ (s : State) (st v : Byte), v.toNat ≤ 3 → Answers s 4 [.ok [st, v]] →
    ∃ t, exec (.construct []) s = .next t ∧ t.csn = true ∧
      Leaves s t .standby (initialCfg s.params) false
        ([.pinWrite .ce false, .pinWrite .csn true] ++
          transactionEvents (encodeFrame s.params (.readRegister s.params.ADDR_SETUP_AW 1)) (.ok [st, v]))
        (.ok .unit) 4 1

/-- R152 with a batch of any length and kinds: after the connectivity check the batch's transactions are
made in list order, and then the block is live, with the cache the batch left. -/
def Obligations.ConstructRunsItsBatch : Prop :=
  ∀ (s : State) (st v : Byte) (batch : List BatchOp) (made : List (Command × List Byte)) (cfg : Byte), v.toNat ≤ 3 →
    BatchMakes s.params (initialCfg s.params) batch made cfg →
    Answers s (4 + 2 * made.length) (.ok [st, v] :: made.map fun p => .ok p.2) →
    ∃ t, exec (.construct batch) s = .next t ∧
      Leaves s t .standby cfg false
        ([.pinWrite .ce false, .pinWrite .csn true] ++
          transactionEvents (encodeFrame s.params (.readRegister s.params.ADDR_SETUP_AW 1)) (.ok [st, v]) ++
          made.flatMap fun p => transactionEvents (encodeFrame s.params p.1) (.ok p.2))
        (.ok .unit) (4 + 2 * made.length) (1 + made.length)

/-- R131, R155: a construction that ends with anything but `Ok` leaves the block not live, faulted only if
the outcome was a fault, with CE low and CSN high unless a line write failed; and the three ends that
do not depend on the batch. -/
def Obligations.FailedConstructionIsNotLive : Prop :=
  (∀ (batch : List BatchOp) (s t : State) (o : OpOutcome), exec (.construct batch) s = .next t →
    t.outcomes = s.outcomes ++ [o] → o ≠ .ok .unit →
    t.live = false ∧ (t.fault = true ↔ ∃ r, o = .fault r) ∧
    ((∀ l, o ≠ .fault (.lineWriteFailed l)) → t.ce = false ∧ t.csn = true)) ∧
  (∀ (batch : List BatchOp) (s : State) (st v : Byte), 3 < v.toNat → Answers s 4 [.ok [st, v]] →
    ∃ t, exec (.construct batch) s = .next t ∧ t.outcomes = s.outcomes ++ [.notConnected] ∧
      t.trace = s.trace ++ ([.pinWrite .ce false, .pinWrite .csn true] ++
        transactionEvents (encodeFrame s.params (.readRegister s.params.ADDR_SETUP_AW 1)) (.ok [st, v]))) ∧
  (∀ (batch : List BatchOp) (s : State) (e : TransportError), Answers s 4 [.err e] →
    ∃ t, exec (.construct batch) s = .next t ∧ t.outcomes = s.outcomes ++ [.transportFailure e] ∧
      t.trace = s.trace ++ ([.pinWrite .ce false, .pinWrite .csn true] ++
        transactionEvents (encodeFrame s.params (.readRegister s.params.ADDR_SETUP_AW 1)) (.err e))) ∧
  (∀ (batch : List BatchOp) (s : State) (rest : List Bool), s.lineAnswers = false :: rest →
    ∃ t, exec (.construct batch) s = .next t ∧ t.outcomes = s.outcomes ++ [.fault (.lineWriteFailed .ce)] ∧
      t.trace = s.trace ++ [.pinWrite .ce false])

/-- R156: `construct` is accepted in every state, live or not, faulted or not, and does the same thing: from
any two states with the same parameters and the same environment it performs the same events, answers the
same outcome and leaves the same block.  CSN is left out: R152 does not write it when the CE write fails.
That mode and cfg agree after a failed construction too is the model's choice: R32 and R155 leave both
unspecified there, and the model draws them as free values of the draw counter (log entries 4 and 6), which
the two states share. -/
def Obligations.ConstructIgnoresThePast : Prop :=
  ∀ (batch : List BatchOp) (s s' t t' : State), s.params = s'.params →
    s.exchAnswers = s'.exchAnswers → s.lineAnswers = s'.lineAnswers → s.draws = s'.draws →
    exec (.construct batch) s = .next t → exec (.construct batch) s' = .next t' →
    ∃ (o : OpOutcome) (events : List Event), (∀ r, o ≠ .refused r) ∧
      t.outcomes = s.outcomes ++ [o] ∧ t'.outcomes = s'.outcomes ++ [o] ∧
      t.trace = s.trace ++ events ∧ t'.trace = s'.trace ++ events ∧
      t.live = t'.live ∧ t.fault = t'.fault ∧ t.mode = t'.mode ∧ t.cfg = t'.cfg ∧ t.ce = t'.ce

/-! ## Outcomes, faults and frames -/

/-- R18, R19, R134: only `construct` writes `live` or clears `fault`, and `fault` is set by exactly the
operations that end with `Fault(r)`. -/
def Obligations.FaultIsSticky : Prop :=
  ∀ (i : Instr) (s t : State) (o : OpOutcome), exec i s = .next t → t.outcomes = s.outcomes ++ [o] →
    ((∀ batch, i ≠ .construct batch) →
      t.live = s.live ∧ (t.fault = true ↔ s.fault = true ∨ ∃ r, o = .fault r)) ∧
    (∀ batch, i = .construct batch → (t.fault = true ↔ ∃ r, o = .fault r) ∧ (t.live = true ↔ o = .ok .unit))

/-- The frame of the operations that are transactions and nothing else (R87 to R94, R100 to R102, R105,
R119): besides CSN, the buffer, the sticky fault bit, the trace, the outcomes and the environment's
script, nothing changes. -/
def Obligations.TransactionFrame : Prop :=
  ∀ (i : Instr) (s t : State),
    (∃ c, i = Instr.ofCommand c ∨ i = .sendCommand c) ∨ (∃ a w v, i = .writeRegister a w v) ∨
      (∃ a w, i = .readRegister a w) ∨ i = .isConnected ∨ i = .clearInterrupts →
    exec i s = .next t →
    t.mode = s.mode ∧ t.cfg = s.cfg ∧ t.ce = s.ce ∧ t.live = s.live ∧ t.old = s.old ∧ t.new = s.new ∧
    t.requests = s.requests ∧ t.params = s.params

/-- The frame of the read-modify-write operations (R103, R104): `update_register` leaves the cache alone
and both leave mode, CE and `live` alone; the temporaries, CSN and the buffer may change. -/
def Obligations.ReadModifyWriteFrame : Prop :=
  (∀ (a : RegAddr) (w : Nat) (f : Mutator) (s t : State), exec (.updateRegister a w f) s = .next t →
    t.mode = s.mode ∧ t.cfg = s.cfg ∧ t.ce = s.ce ∧ t.live = s.live ∧ t.requests = s.requests ∧ t.params = s.params) ∧
  (∀ (f : Mutator) (s t : State), exec (.updateConfig f) s = .next t →
    t.mode = s.mode ∧ t.ce = s.ce ∧ t.live = s.live ∧ t.requests = s.requests ∧ t.params = s.params)

/-- The frame of the mode machine (R112 to R118): `live` stays, and every bit of the cache but `PRIM_RX`. -/
def Obligations.ModeMachineFrame : Prop :=
  ∀ (i : Instr) (s t : State),
    i = .enterRx ∨ i = .enterTx ∨ (∃ p, i = .send p) ∨ i = .waitTxReady ∨ i = .waitTxEmpty ∨ i = .waitRxReady ∨ i = .read →
    exec i s = .next t →
    t.live = s.live ∧ t.requests = s.requests ∧ t.params = s.params ∧
    ∀ k, k ≠ s.params.CFG_PRIM_RX → t.cfg.getLsbD k = s.cfg.getLsbD k

/-- R20, R40: only a transaction touches the buffer: an operation other than `construct` that makes no
CSN write leaves every byte of it, and its length, as they were. -/
def Obligations.OnlyTransactionsTouchTheBuffer : Prop :=
  ∀ (i : Instr) (s t : State) (events : List Event), (∀ batch, i ≠ .construct batch) → exec i s = .next t →
    t.trace = s.trace ++ events → (∀ b, .pinWrite .csn b ∉ events) →
    t.len = s.len ∧ ∀ k, t.readBuf k = s.readBuf k

/-- R110, R129, R146: an operation that ends with a transport failure has performed exactly the events up
to the release of chip-select after the failed exchange; and a failed exchange is never retried or
masked: it is the operation's last exchange and decides its outcome, unless the release itself fails
(R141 (e)). -/
def Obligations.BusErrorsAreNotMasked : Prop :=
  ∀ (i : Instr) (s t : State) (o : OpOutcome) (events : List Event), exec i s = .next t →
    t.outcomes = s.outcomes ++ [o] → t.trace = s.trace ++ events →
    (∀ e, o = .transportFailure e → ∃ before tx, events = before ++ [.exchange tx (.err e), .pinWrite .csn true]) ∧
    (∀ tx e, .exchange tx (.err e) ∈ events →
      (∃ before, events = before ++ [.exchange tx (.err e), .pinWrite .csn true]) ∧
      (o = .transportFailure e ∨ o = .fault (.lineWriteFailed .csn)))

/-! ## Whole-machine rules -/

/-- R108, R49: chip-select is released exactly once per transaction.  The events of every operation are CE
writes and whole transactions, and `construct` adds its two line writes before them; the only exception
is a failing line write, which is the operation's last event and ends it with a fault. -/
def Obligations.TransactionsAreFramed : Prop :=
  ∀ (i : Instr) (s t : State) (o : OpOutcome) (events : List Event), i.wf = true → exec i s = .next t →
    t.outcomes = s.outcomes ++ [o] → t.trace = s.trace ++ events →
    ((∀ batch, i ≠ .construct batch) →
      ((∀ l, o ≠ .fault (.lineWriteFailed l)) → framed events = true) ∧
      (∀ l, o = .fault (.lineWriteFailed l) → CutAtLineWrite l events)) ∧
    (∀ batch, i = .construct batch →
      ((∀ l, o ≠ .fault (.lineWriteFailed l)) →
        ∃ rest, events = .pinWrite .ce false :: .pinWrite .csn true :: rest ∧ framed rest = true) ∧
      (∀ l, o = .fault (.lineWriteFailed l) →
        (l = .ce ∧ events = [.pinWrite .ce false]) ∨
        (l = .csn ∧ events = [.pinWrite .ce false, .pinWrite .csn true]) ∨
        ∃ rest, events = .pinWrite .ce false :: .pinWrite .csn true :: rest ∧ CutAtLineWrite l rest))

/-- R63, R64, R66: with any valid parameters and whatever happens, every frame the block sends is the frame of a command a frame decoder
accepts. -/
def Obligations.FramesOnTheBusAreCommands : Prop :=
  ∀ (i : Instr) (s t : State) (events : List Event), i.wf = true → exec i s = .next t →
    t.trace = s.trace ++ events → s.params.Valid →
    ∀ tx r, .exchange tx r ∈ events → ∃ c, decodeFrame s.params tx = some c ∧ encodeFrame s.params c = tx ∧ c.wfWire = true

/-- R125: no operation but `construct` enters Standby: the others leave a mode of Tx or Rx where they find
one. -/
def Obligations.StandbyIsNotReentered : Prop :=
  ∀ (i : Instr) (s t : State), (∀ batch, i ≠ .construct batch) → exec i s = .next t → s.mode ≠ .standby →
    t.mode = .tx ∨ t.mode = .rx

/-- R124: the operations in whose run CE is driven high, and those in whose run it is driven low, nested
transitions included. -/
def Obligations.WhereCeIsDriven : Prop :=
  ∀ (i : Instr) (s t : State) (events : List Event), exec i s = .next t → t.trace = s.trace ++ events →
    (.pinWrite .ce true ∈ events →
      i = .ceEnable ∨ i = .enterRx ∨ (∃ p, i = .send p) ∨ i = .waitRxReady ∨ i = .read) ∧
    (.pinWrite .ce false ∈ events →
      (∃ batch, i = .construct batch) ∨ i = .ceDisable ∨ i = .enterTx ∨ i = .enterRx ∨ (∃ p, i = .send p) ∨
      i = .waitTxReady ∨ i = .waitTxEmpty ∨ i = .waitRxReady ∨ i = .read)

/-- R123: the mode invariants.  `construct` establishes them, and every operation of a ready block that
keeps the premises (i) and (ii) of the rule keeps them; with any valid parameters. -/
def Obligations.ModeInvariantIsKept : Prop :=
  ∀ (i : Instr) (s t : State) (o : OpOutcome), s.params.Valid → KeepsPremise s.params i → exec i s = .next t →
    t.outcomes = s.outcomes ++ [o] → o.benign = true →
    (Ready s ∧ ModeInv s) ∨ (∃ batch, i = .construct batch) → ModeInv t

/-- Every step keeps the shape of the state (R8, R17, R20, R21): the parameters are valid, the buffer has 33
bytes and a length in range, the temporaries a register's width, and CSN is high unless the block has faulted. -/
def Obligations.StepKeepsStateShape : Prop :=
  ∀ s t : State, s.Wf → step s = .next t → t.Wf

/-- The shape holds at reset. -/
def Obligations.ResetHasStateShape : Prop := State.reset.Wf

/-- R16, R17, R20, D42: nothing reads the line levels, the working registers left by earlier operations, or the
record of the past: two states that differ in these only go through the same events to the same
outcome, and stay alike. -/
def Obligations.UnreadStateHasNoEffect : Prop :=
  ∀ (i : Instr) (s s' t t' : State), SameButUnread s s' → exec i s = .next t → exec i s' = .next t' →
    SameButUnread t t' ∧ ∃ (o : OpOutcome) (events : List Event),
      t.outcomes = s.outcomes ++ [o] ∧ t'.outcomes = s'.outcomes ++ [o] ∧
      t.trace = s.trace ++ events ∧ t'.trace = s'.trace ++ events

/-! ## The open type of errors -/

/-- R9, R129, D31: the type `E` of transport errors is open and nothing is assumed of it.  The host's machine
is the machine over any `E`, taken at one type; and an error is handed on verbatim and never looked at: for
any types `E` and `F` and any function from one to the other, renaming the errors a block has met and is
going to meet renames those in what an operation leaves and changes nothing else, as long as the
environment's script holds an answer for each exchange (beyond it an error is a free value of its type, log
entry 4). -/
def Obligations.ErrorTypeIsOpen : Prop :=
  (∀ (i : Instr) (s : State), exec i s = execOf i s) ∧ (∀ s : State, step s = stepOf s) ∧
  ∀ (E F : Type) (f : E → F) (i : Instr) (s t : State E) (events : List (Event E)),
    execOf i s = .next t → t.trace = s.trace ++ events → exchanges events ≤ s.exchAnswers.length →
    execOf i (s.mapErrors f) = .next (t.mapErrors f)
end

