-- ==== Sys2Proof/Laws/AnyError.lean ====
section
/-! SUPPORT. Renaming errors commutes with the shared operations, as long as the environment's script holds
an answer for each exchange (R9, D31). -/

namespace Sys2Proof.Machine

variable {E F : Type} (f : E → F) {α β : Type}

/-- An early end with its error renamed. -/
def Early.mapErrors : Early E → Early F
  | .wouldBlock => .wouldBlock
  | .transportFailure e => .transportFailure (f e)
  | .notConnected => .notConnected
  | .fault r => .fault r

/-- A nested operation's end with every error renamed. -/
def Res.mapErrors : Res α E → Res α F
  | .done a s => .done a (s.mapErrors f)
  | .stop e s => .stop (e.mapErrors f) (s.mapErrors f)

/-- From `s`, the run that ends with `r` and the renamed run that ends with `r'` are each other's image, if the
script covers the exchanges. -/
def Renames (s : State E) (r : Res α E) (r' : Res α F) : Prop :=
  ∃ events, r.state.trace = s.trace ++ events ∧
    (exchanges events ≤ s.exchAnswers.length →
      r.state.exchAnswers.length + exchanges events = s.exchAnswers.length ∧ r' = r.mapErrors f)

variable {f}

/-- A step that leaves the trace and the exchange answers may come first. -/
theorem Renames.of_eq {s t : State E} (ht : t.trace = s.trace) (hx : t.exchAnswers = s.exchAnswers)
    {r : Res α E} {r' : Res α F} (h : Renames f t r r') : Renames f s r r' := by
  obtain ⟨ev, h1, h2⟩ := h
  exact ⟨ev, by rw [h1, ht], by rw [← hx]; exact h2⟩

theorem Renames.done (a : α) (s : State E) : Renames f s (.done a s) (.done a (s.mapErrors f)) :=
  ⟨[], by simp [Res.state], fun _ => ⟨rfl, rfl⟩⟩

theorem Renames.stop (e : Early E) (s : State E) : Renames f s (.stop e s : Res α E) (.stop (e.mapErrors f) (s.mapErrors f)) :=
  ⟨[], by simp [Res.state], fun _ => ⟨rfl, rfl⟩⟩

/-- The fact survives sequencing. -/
theorem Renames.andThen {s : State E} {r : Res α E} {r' : Res α F} {g : α → State E → Res β E} {g' : α → State F → Res β F}
    (h : Renames f s r r') (hg : ∀ a t, Renames f t (g a t) (g' a (t.mapErrors f))) :
    Renames f s (r.andThen g) (r'.andThen g') := by
  obtain ⟨ev, h1, h2⟩ := h
  cases r with
  | stop e t =>
    refine ⟨ev, h1, fun hx => ⟨(h2 hx).1, ?_⟩⟩
    rw [(h2 hx).2]; rfl
  | done a t =>
    obtain ⟨ev', h3, h4⟩ := hg a t
    simp only [Res.state] at h1 h2
    refine ⟨ev ++ ev', by simp only [Res.andThen, h3, h1, List.append_assoc], fun hx => ?_⟩
    have hs : exchanges (ev ++ ev') = exchanges ev + exchanges ev' := by simp [exchanges]
    obtain ⟨h5, h6⟩ := h2 (by omega)
    obtain ⟨h7, h8⟩ := h4 (by omega)
    refine ⟨by simp only [Res.andThen]; omega, ?_⟩
    rw [h6]; exact h8

theorem mapErrors_record (s : State E) (e : Event E) : (s.record e).mapErrors f = (s.mapErrors f).record (e.mapErrors f) := by
  simp [State.mapErrors, State.record]

theorem mapErrors_setLine (s : State E) (l : Line) (b : Bool) : (s.setLine l b).mapErrors f = (s.mapErrors f).setLine l b := by
  cases l <;> rfl

theorem Renames.pin (l : Line) (b : Bool) (s : State E) : Renames f s (pin l b s) (Machine.pin l b (s.mapErrors f)) := by
  have key : ∀ n : Bool × State E, n.2.trace = s.trace → n.2.exchAnswers = s.exchAnswers →
      Renames f s
        (if n.1 then .done () ((n.2.setLine l b).record (.pinWrite l b))
          else raise (.lineWriteFailed l) ((n.2.setLine l b).record (.pinWrite l b)))
        (if n.1 then .done () (((n.2.mapErrors f).setLine l b).record (.pinWrite l b))
          else raise (.lineWriteFailed l) (((n.2.mapErrors f).setLine l b).record (.pinWrite l b))) := by
    rintro ⟨ok, u⟩ ht hx
    have e : ((u.mapErrors f).setLine l b).record (.pinWrite l b) = ((u.setLine l b).record (.pinWrite l b)).mapErrors f := by
      rw [mapErrors_record, mapErrors_setLine]; rfl
    have h1 : ((u.setLine l b).record (.pinWrite l b)).trace = s.trace ++ [.pinWrite l b] := by
      rw [← ht]; cases l <;> rfl
    have h2 : ((u.setLine l b).record (.pinWrite l b)).exchAnswers = s.exchAnswers := by
      rw [← hx]; cases l <;> rfl
    refine ⟨[.pinWrite l b], by cases ok <;> exact h1, fun _ => ⟨?_, by rw [e]; cases ok <;> rfl⟩⟩
    rw [← h2]; cases ok <;> rfl
  have hn : (s.mapErrors f).nextLine = (s.nextLine.1, s.nextLine.2.mapErrors f) := by
    cases s with | mk _ _ _ _ _ _ _ _ _ _ _ _ _ _ _ ls _ => cases ls <;> rfl
  have := key s.nextLine (by cases s with | mk _ _ _ _ _ _ _ _ _ _ _ _ _ _ _ ls _ => cases ls <;> rfl)
    (by cases s with | mk _ _ _ _ _ _ _ _ _ _ _ _ _ _ _ ls _ => cases ls <;> rfl)
  unfold Machine.pin
  rw [hn]
  exact this

/-- An exchange, and what is done with its answer. -/
theorem Renames.exchange {s : State E} {tx : List Byte} {g : Answer E → State E → Res β E} {g' : Answer F → State F → Res β F}
    (hg : ∀ a t, Renames f t (g a t) (g' (a.mapErrors f) (t.mapErrors f))) :
    Renames f s (g (exchange tx s).1 (exchange tx s).2)
      (g' (Machine.exchange tx (s.mapErrors f)).1 (Machine.exchange tx (s.mapErrors f)).2) := by
  obtain ⟨ev', h3, h4⟩ := hg (Machine.exchange tx s).1 (Machine.exchange tx s).2
  have ht : ∀ s : State E, (Machine.exchange tx s).2.trace = s.trace ++ [.exchange tx (Machine.exchange tx s).1] := by
    intro s; simp only [Machine.exchange, State.nextAnswer]
    split <;> [rfl; rfl; (split <;> rfl)]
  refine ⟨.exchange tx (Machine.exchange tx s).1 :: ev', by rw [h3, ht]; simp, fun hx => ?_⟩
  have hs : exchanges (.exchange tx (Machine.exchange tx s).1 :: ev') = 1 + exchanges ev' := by
    simp only [exchanges, List.countP_cons, Event.isExchange, if_true]; omega
  rw [hs] at hx ⊢
  have hne : ∃ a rest, s.exchAnswers = a :: rest := by
    cases h : s.exchAnswers with
    | nil => rw [h] at hx; simp at hx
    | cons a r => exact ⟨a, r, rfl⟩
  obtain ⟨a, rest, ha⟩ := hne
  have key : (Machine.exchange tx s).2.exchAnswers = rest ∧
      Machine.exchange tx (s.mapErrors f) = ((Machine.exchange tx s).1.mapErrors f, (Machine.exchange tx s).2.mapErrors f) := by
    cases a with
    | ok rx => simp [Machine.exchange, State.nextAnswer, ha, Answer.mapErrors, State.record, State.mapErrors, State.setExchAnswers,
        Event.mapErrors]
    | err e => simp [Machine.exchange, State.nextAnswer, ha, Answer.mapErrors, State.record, State.mapErrors, State.setExchAnswers,
        Event.mapErrors]
  rw [key.1] at h4
  rw [ha] at hx ⊢
  simp only [List.length_cons] at hx ⊢
  obtain ⟨h5, h6⟩ := h4 (by omega)
  refine ⟨by omega, ?_⟩
  rw [key.2]; exact h6

theorem Renames.transact (p : Config.Params) (c : Command) (s : State E) :
    Renames f s (transact p c s) (Machine.transact p c (s.mapErrors f)) := by
  unfold Machine.transact
  split
  · exact (Renames.stop (.fault .payloadTooLong) (s.setFault true)).of_eq rfl rfl
  · refine Renames.of_eq (t := s.allocBuf (encodeFrame p c)) rfl rfl (Renames.andThen (Renames.pin _ _ _) fun _ t => ?_)
    refine Renames.exchange (g := closeTransaction c) (g' := closeTransaction c) fun a t => ?_
    cases a with
    | err e =>
      exact Renames.of_eq (t := t.loseBuf) rfl rfl ((Renames.pin .csn true t.loseBuf).andThen fun _ t => Renames.stop (.transportFailure e) t)
    | ok rx => exact (Renames.pin .csn true t).andThen fun _ t => Renames.of_eq (t := t.fillRegion rx) rfl rfl (Renames.done _ (t.fillRegion rx))

theorem Renames.readRegister (p : Config.Params) (a : RegAddr) (w : Nat) (s : State E) :
    Renames f s (opReadRegister p a w s) (opReadRegister p a w (s.mapErrors f)) :=
  (Renames.transact p _ s).andThen fun _ t => .done _ t

theorem Renames.writeRegister (p : Config.Params) (a : RegAddr) (w : Nat) (v : List Byte) (s : State E) :
    Renames f s (opWriteRegister p a w v s) (opWriteRegister p a w v (s.mapErrors f)) :=
  (Renames.transact p _ s).andThen fun _ t => .done _ t

theorem Renames.sendCommand (p : Config.Params) (c : Command) (s : State E) :
    Renames f s (opSendCommand p c s) (opSendCommand p c (s.mapErrors f)) :=
  (Renames.transact p _ s).andThen fun _ t => .done _ t

theorem Renames.updateRegister (p : Config.Params) (a : RegAddr) (w : Nat) (m : Mutator) (s : State E) :
    Renames f s (opUpdateRegister p a w m s) (opUpdateRegister p a w m (s.mapErrors f)) := by
  unfold opUpdateRegister
  split
  · exact (Renames.stop (.fault _) (s.setFault true)).of_eq rfl rfl
  · refine (Renames.readRegister p a w s).andThen fun x t => ?_
    refine Renames.of_eq (t := t.setTemps x.2 (evalMutator m x.2).1) rfl rfl ?_
    simp only
    split
    · exact (Renames.writeRegister p a w _ _).andThen fun _ t => .done _ t
    · exact .done _ _

theorem Renames.updateConfig (p : Config.Params) (m : Byte → Byte × MutResult) (s : State E) :
    Renames f s (updateConfigWith p m s) (updateConfigWith p m (s.mapErrors f)) := by
  refine Renames.of_eq (t := (s.setTemps [s.cfg] [(m s.cfg).1]).setCfg (m s.cfg).1) rfl rfl ?_
  unfold updateConfigWith
  have : (s.mapErrors f).cfg = s.cfg := rfl
  simp only [this]
  split
  · exact (Renames.writeRegister p _ _ _ _).andThen fun _ t => .done _ t
  · exact .done _ _

theorem mapErrors_forgetWorking (t : State E) : t.forgetWorking.mapErrors f = (t.mapErrors f).forgetWorking := by
  simp only [State.forgetWorking, State.setBuf, State.setTemps, State.draw, State.mapErrors]

theorem mapErrors_forgetModeCfg (t : State E) : t.forgetModeCfg.mapErrors f = (t.mapErrors f).forgetModeCfg := by
  simp only [State.forgetModeCfg, State.setMode, State.setCfg, State.draw, State.mapErrors]

theorem mapErrors_setLive (t : State E) (b : Bool) : (t.setLive b).mapErrors f = (t.mapErrors f).setLive b := rfl

/-- The end of an operation: the outcome's error is renamed too. -/
theorem Renames.finish {s : State E} {r : Res Value E} {r' : Res Value F} (h : Renames f s r r') {events : List (Event E)}
    (ht : r.finish.trace = s.trace ++ events) (hx : exchanges events ≤ s.exchAnswers.length) :
    r'.finish = r.finish.mapErrors f := by
  obtain ⟨ev, h1, h2⟩ := h
  have : ev = events := by
    have : r.finish.trace = r.state.trace := rfl
    rw [this, h1] at ht; exact List.append_cancel_left ht
  subst this
  rw [(h2 hx).2]
  cases r with
  | done a t => simp [Res.finish, Res.mapErrors, Res.state, Res.outcome, State.answer, State.mapErrors, OpOutcome.mapErrors]
  | stop e t => cases e <;> simp [Res.finish, Res.mapErrors, Res.state, Res.outcome, State.answer, State.mapErrors, OpOutcome.mapErrors, Early.toOutcome, Early.mapErrors]

/-- The operation at the host port. -/
theorem Renames.port {s t : State E} {op : State E → Res Value E} {op' : State F → Res Value F}
    (h : Renames f s (op s) (op' (s.mapErrors f))) {events : List (Event E)}
    (hs : hostPort op s = .next t) (ht : t.trace = s.trace ++ events) (hx : exchanges events ≤ s.exchAnswers.length) :
    hostPort op' (s.mapErrors f) = .next (t.mapErrors f) := by
  unfold hostPort at hs ⊢
  have a : (s.mapErrors f).live = s.live := rfl
  have b : (s.mapErrors f).fault = s.fault := rfl
  rw [a, b]
  cases hs
  split
  · rename_i hc
    rw [if_pos hc] at ht
    exact congrArg Host.Outcome.next (Renames.finish h ht hx)
  · simp [State.answer, State.mapErrors, OpOutcome.mapErrors]

end Sys2Proof.Machine
end

