-- ==== Sys2Proof/Laws/State.lean ====
section
/-! SUPPORT. One lemma per update of State and field: what the update makes of it. -/

namespace Sys2Proof.Machine

variable {E : Type} (s : State E)

@[simp] theorem State.setMode_params (m : Mode) : (s.setMode m).params = s.params := rfl
@[simp] theorem State.setMode_mode (m : Mode) : (s.setMode m).mode = m := rfl
@[simp] theorem State.setMode_cfg (m : Mode) : (s.setMode m).cfg = s.cfg := rfl
@[simp] theorem State.setMode_ce (m : Mode) : (s.setMode m).ce = s.ce := rfl
@[simp] theorem State.setMode_csn (m : Mode) : (s.setMode m).csn = s.csn := rfl
@[simp] theorem State.setMode_live (m : Mode) : (s.setMode m).live = s.live := rfl
@[simp] theorem State.setMode_fault (m : Mode) : (s.setMode m).fault = s.fault := rfl
@[simp] theorem State.setMode_buf (m : Mode) : (s.setMode m).buf = s.buf := rfl
@[simp] theorem State.setMode_len (m : Mode) : (s.setMode m).len = s.len := rfl
@[simp] theorem State.setMode_old (m : Mode) : (s.setMode m).old = s.old := rfl
@[simp] theorem State.setMode_new (m : Mode) : (s.setMode m).new = s.new := rfl
@[simp] theorem State.setMode_trace (m : Mode) : (s.setMode m).trace = s.trace := rfl
@[simp] theorem State.setMode_outcomes (m : Mode) : (s.setMode m).outcomes = s.outcomes := rfl
@[simp] theorem State.setMode_requests (m : Mode) : (s.setMode m).requests = s.requests := rfl
@[simp] theorem State.setMode_exchAnswers (m : Mode) : (s.setMode m).exchAnswers = s.exchAnswers := rfl
@[simp] theorem State.setMode_lineAnswers (m : Mode) : (s.setMode m).lineAnswers = s.lineAnswers := rfl
@[simp] theorem State.setMode_draws (m : Mode) : (s.setMode m).draws = s.draws := rfl

@[simp] theorem State.setCfg_params (c : Byte) : (s.setCfg c).params = s.params := rfl
@[simp] theorem State.setCfg_mode (c : Byte) : (s.setCfg c).mode = s.mode := rfl
@[simp] theorem State.setCfg_cfg (c : Byte) : (s.setCfg c).cfg = c := rfl
@[simp] theorem State.setCfg_ce (c : Byte) : (s.setCfg c).ce = s.ce := rfl
@[simp] theorem State.setCfg_csn (c : Byte) : (s.setCfg c).csn = s.csn := rfl
@[simp] theorem State.setCfg_live (c : Byte) : (s.setCfg c).live = s.live := rfl
@[simp] theorem State.setCfg_fault (c : Byte) : (s.setCfg c).fault = s.fault := rfl
@[simp] theorem State.setCfg_buf (c : Byte) : (s.setCfg c).buf = s.buf := rfl
@[simp] theorem State.setCfg_len (c : Byte) : (s.setCfg c).len = s.len := rfl
@[simp] theorem State.setCfg_old (c : Byte) : (s.setCfg c).old = s.old := rfl
@[simp] theorem State.setCfg_new (c : Byte) : (s.setCfg c).new = s.new := rfl
@[simp] theorem State.setCfg_trace (c : Byte) : (s.setCfg c).trace = s.trace := rfl
@[simp] theorem State.setCfg_outcomes (c : Byte) : (s.setCfg c).outcomes = s.outcomes := rfl
@[simp] theorem State.setCfg_requests (c : Byte) : (s.setCfg c).requests = s.requests := rfl
@[simp] theorem State.setCfg_exchAnswers (c : Byte) : (s.setCfg c).exchAnswers = s.exchAnswers := rfl
@[simp] theorem State.setCfg_lineAnswers (c : Byte) : (s.setCfg c).lineAnswers = s.lineAnswers := rfl
@[simp] theorem State.setCfg_draws (c : Byte) : (s.setCfg c).draws = s.draws := rfl

@[simp] theorem State.setCe_params (b : Bool) : (s.setCe b).params = s.params := rfl
@[simp] theorem State.setCe_mode (b : Bool) : (s.setCe b).mode = s.mode := rfl
@[simp] theorem State.setCe_cfg (b : Bool) : (s.setCe b).cfg = s.cfg := rfl
@[simp] theorem State.setCe_ce (b : Bool) : (s.setCe b).ce = b := rfl
@[simp] theorem State.setCe_csn (b : Bool) : (s.setCe b).csn = s.csn := rfl
@[simp] theorem State.setCe_live (b : Bool) : (s.setCe b).live = s.live := rfl
@[simp] theorem State.setCe_fault (b : Bool) : (s.setCe b).fault = s.fault := rfl
@[simp] theorem State.setCe_buf (b : Bool) : (s.setCe b).buf = s.buf := rfl
@[simp] theorem State.setCe_len (b : Bool) : (s.setCe b).len = s.len := rfl
@[simp] theorem State.setCe_old (b : Bool) : (s.setCe b).old = s.old := rfl
@[simp] theorem State.setCe_new (b : Bool) : (s.setCe b).new = s.new := rfl
@[simp] theorem State.setCe_trace (b : Bool) : (s.setCe b).trace = s.trace := rfl
@[simp] theorem State.setCe_outcomes (b : Bool) : (s.setCe b).outcomes = s.outcomes := rfl
@[simp] theorem State.setCe_requests (b : Bool) : (s.setCe b).requests = s.requests := rfl
@[simp] theorem State.setCe_exchAnswers (b : Bool) : (s.setCe b).exchAnswers = s.exchAnswers := rfl
@[simp] theorem State.setCe_lineAnswers (b : Bool) : (s.setCe b).lineAnswers = s.lineAnswers := rfl
@[simp] theorem State.setCe_draws (b : Bool) : (s.setCe b).draws = s.draws := rfl

@[simp] theorem State.setCsn_params (b : Bool) : (s.setCsn b).params = s.params := rfl
@[simp] theorem State.setCsn_mode (b : Bool) : (s.setCsn b).mode = s.mode := rfl
@[simp] theorem State.setCsn_cfg (b : Bool) : (s.setCsn b).cfg = s.cfg := rfl
@[simp] theorem State.setCsn_ce (b : Bool) : (s.setCsn b).ce = s.ce := rfl
@[simp] theorem State.setCsn_csn (b : Bool) : (s.setCsn b).csn = b := rfl
@[simp] theorem State.setCsn_live (b : Bool) : (s.setCsn b).live = s.live := rfl
@[simp] theorem State.setCsn_fault (b : Bool) : (s.setCsn b).fault = s.fault := rfl
@[simp] theorem State.setCsn_buf (b : Bool) : (s.setCsn b).buf = s.buf := rfl
@[simp] theorem State.setCsn_len (b : Bool) : (s.setCsn b).len = s.len := rfl
@[simp] theorem State.setCsn_old (b : Bool) : (s.setCsn b).old = s.old := rfl
@[simp] theorem State.setCsn_new (b : Bool) : (s.setCsn b).new = s.new := rfl
@[simp] theorem State.setCsn_trace (b : Bool) : (s.setCsn b).trace = s.trace := rfl
@[simp] theorem State.setCsn_outcomes (b : Bool) : (s.setCsn b).outcomes = s.outcomes := rfl
@[simp] theorem State.setCsn_requests (b : Bool) : (s.setCsn b).requests = s.requests := rfl
@[simp] theorem State.setCsn_exchAnswers (b : Bool) : (s.setCsn b).exchAnswers = s.exchAnswers := rfl
@[simp] theorem State.setCsn_lineAnswers (b : Bool) : (s.setCsn b).lineAnswers = s.lineAnswers := rfl
@[simp] theorem State.setCsn_draws (b : Bool) : (s.setCsn b).draws = s.draws := rfl

@[simp] theorem State.setLive_params (b : Bool) : (s.setLive b).params = s.params := rfl
@[simp] theorem State.setLive_mode (b : Bool) : (s.setLive b).mode = s.mode := rfl
@[simp] theorem State.setLive_cfg (b : Bool) : (s.setLive b).cfg = s.cfg := rfl
@[simp] theorem State.setLive_ce (b : Bool) : (s.setLive b).ce = s.ce := rfl
@[simp] theorem State.setLive_csn (b : Bool) : (s.setLive b).csn = s.csn := rfl
@[simp] theorem State.setLive_live (b : Bool) : (s.setLive b).live = b := rfl
@[simp] theorem State.setLive_fault (b : Bool) : (s.setLive b).fault = s.fault := rfl
@[simp] theorem State.setLive_buf (b : Bool) : (s.setLive b).buf = s.buf := rfl
@[simp] theorem State.setLive_len (b : Bool) : (s.setLive b).len = s.len := rfl
@[simp] theorem State.setLive_old (b : Bool) : (s.setLive b).old = s.old := rfl
@[simp] theorem State.setLive_new (b : Bool) : (s.setLive b).new = s.new := rfl
@[simp] theorem State.setLive_trace (b : Bool) : (s.setLive b).trace = s.trace := rfl
@[simp] theorem State.setLive_outcomes (b : Bool) : (s.setLive b).outcomes = s.outcomes := rfl
@[simp] theorem State.setLive_requests (b : Bool) : (s.setLive b).requests = s.requests := rfl
@[simp] theorem State.setLive_exchAnswers (b : Bool) : (s.setLive b).exchAnswers = s.exchAnswers := rfl
@[simp] theorem State.setLive_lineAnswers (b : Bool) : (s.setLive b).lineAnswers = s.lineAnswers := rfl
@[simp] theorem State.setLive_draws (b : Bool) : (s.setLive b).draws = s.draws := rfl

@[simp] theorem State.setFault_params (b : Bool) : (s.setFault b).params = s.params := rfl
@[simp] theorem State.setFault_mode (b : Bool) : (s.setFault b).mode = s.mode := rfl
@[simp] theorem State.setFault_cfg (b : Bool) : (s.setFault b).cfg = s.cfg := rfl
@[simp] theorem State.setFault_ce (b : Bool) : (s.setFault b).ce = s.ce := rfl
@[simp] theorem State.setFault_csn (b : Bool) : (s.setFault b).csn = s.csn := rfl
@[simp] theorem State.setFault_live (b : Bool) : (s.setFault b).live = s.live := rfl
@[simp] theorem State.setFault_fault (b : Bool) : (s.setFault b).fault = b := rfl
@[simp] theorem State.setFault_buf (b : Bool) : (s.setFault b).buf = s.buf := rfl
@[simp] theorem State.setFault_len (b : Bool) : (s.setFault b).len = s.len := rfl
@[simp] theorem State.setFault_old (b : Bool) : (s.setFault b).old = s.old := rfl
@[simp] theorem State.setFault_new (b : Bool) : (s.setFault b).new = s.new := rfl
@[simp] theorem State.setFault_trace (b : Bool) : (s.setFault b).trace = s.trace := rfl
@[simp] theorem State.setFault_outcomes (b : Bool) : (s.setFault b).outcomes = s.outcomes := rfl
@[simp] theorem State.setFault_requests (b : Bool) : (s.setFault b).requests = s.requests := rfl
@[simp] theorem State.setFault_exchAnswers (b : Bool) : (s.setFault b).exchAnswers = s.exchAnswers := rfl
@[simp] theorem State.setFault_lineAnswers (b : Bool) : (s.setFault b).lineAnswers = s.lineAnswers := rfl
@[simp] theorem State.setFault_draws (b : Bool) : (s.setFault b).draws = s.draws := rfl

@[simp] theorem State.setBuf_params (x : List Byte) (n : Nat) : (s.setBuf x n).params = s.params := rfl
@[simp] theorem State.setBuf_mode (x : List Byte) (n : Nat) : (s.setBuf x n).mode = s.mode := rfl
@[simp] theorem State.setBuf_cfg (x : List Byte) (n : Nat) : (s.setBuf x n).cfg = s.cfg := rfl
@[simp] theorem State.setBuf_ce (x : List Byte) (n : Nat) : (s.setBuf x n).ce = s.ce := rfl
@[simp] theorem State.setBuf_csn (x : List Byte) (n : Nat) : (s.setBuf x n).csn = s.csn := rfl
@[simp] theorem State.setBuf_live (x : List Byte) (n : Nat) : (s.setBuf x n).live = s.live := rfl
@[simp] theorem State.setBuf_fault (x : List Byte) (n : Nat) : (s.setBuf x n).fault = s.fault := rfl
@[simp] theorem State.setBuf_buf (x : List Byte) (n : Nat) : (s.setBuf x n).buf = x := rfl
@[simp] theorem State.setBuf_len (x : List Byte) (n : Nat) : (s.setBuf x n).len = n := rfl
@[simp] theorem State.setBuf_old (x : List Byte) (n : Nat) : (s.setBuf x n).old = s.old := rfl
@[simp] theorem State.setBuf_new (x : List Byte) (n : Nat) : (s.setBuf x n).new = s.new := rfl
@[simp] theorem State.setBuf_trace (x : List Byte) (n : Nat) : (s.setBuf x n).trace = s.trace := rfl
@[simp] theorem State.setBuf_outcomes (x : List Byte) (n : Nat) : (s.setBuf x n).outcomes = s.outcomes := rfl
@[simp] theorem State.setBuf_requests (x : List Byte) (n : Nat) : (s.setBuf x n).requests = s.requests := rfl
@[simp] theorem State.setBuf_exchAnswers (x : List Byte) (n : Nat) : (s.setBuf x n).exchAnswers = s.exchAnswers := rfl
@[simp] theorem State.setBuf_lineAnswers (x : List Byte) (n : Nat) : (s.setBuf x n).lineAnswers = s.lineAnswers := rfl
@[simp] theorem State.setBuf_draws (x : List Byte) (n : Nat) : (s.setBuf x n).draws = s.draws := rfl

@[simp] theorem State.setTemps_params (o n : List Byte) : (s.setTemps o n).params = s.params := rfl
@[simp] theorem State.setTemps_mode (o n : List Byte) : (s.setTemps o n).mode = s.mode := rfl
@[simp] theorem State.setTemps_cfg (o n : List Byte) : (s.setTemps o n).cfg = s.cfg := rfl
@[simp] theorem State.setTemps_ce (o n : List Byte) : (s.setTemps o n).ce = s.ce := rfl
@[simp] theorem State.setTemps_csn (o n : List Byte) : (s.setTemps o n).csn = s.csn := rfl
@[simp] theorem State.setTemps_live (o n : List Byte) : (s.setTemps o n).live = s.live := rfl
@[simp] theorem State.setTemps_fault (o n : List Byte) : (s.setTemps o n).fault = s.fault := rfl
@[simp] theorem State.setTemps_buf (o n : List Byte) : (s.setTemps o n).buf = s.buf := rfl
@[simp] theorem State.setTemps_len (o n : List Byte) : (s.setTemps o n).len = s.len := rfl
@[simp] theorem State.setTemps_old (o n : List Byte) : (s.setTemps o n).old = o := rfl
@[simp] theorem State.setTemps_new (o n : List Byte) : (s.setTemps o n).new = n := rfl
@[simp] theorem State.setTemps_trace (o n : List Byte) : (s.setTemps o n).trace = s.trace := rfl
@[simp] theorem State.setTemps_outcomes (o n : List Byte) : (s.setTemps o n).outcomes = s.outcomes := rfl
@[simp] theorem State.setTemps_requests (o n : List Byte) : (s.setTemps o n).requests = s.requests := rfl
@[simp] theorem State.setTemps_exchAnswers (o n : List Byte) : (s.setTemps o n).exchAnswers = s.exchAnswers := rfl
@[simp] theorem State.setTemps_lineAnswers (o n : List Byte) : (s.setTemps o n).lineAnswers = s.lineAnswers := rfl
@[simp] theorem State.setTemps_draws (o n : List Byte) : (s.setTemps o n).draws = s.draws := rfl

@[simp] theorem State.record_params (e : Event E) : (s.record e).params = s.params := rfl
@[simp] theorem State.record_mode (e : Event E) : (s.record e).mode = s.mode := rfl
@[simp] theorem State.record_cfg (e : Event E) : (s.record e).cfg = s.cfg := rfl
@[simp] theorem State.record_ce (e : Event E) : (s.record e).ce = s.ce := rfl
@[simp] theorem State.record_csn (e : Event E) : (s.record e).csn = s.csn := rfl
@[simp] theorem State.record_live (e : Event E) : (s.record e).live = s.live := rfl
@[simp] theorem State.record_fault (e : Event E) : (s.record e).fault = s.fault := rfl
@[simp] theorem State.record_buf (e : Event E) : (s.record e).buf = s.buf := rfl
@[simp] theorem State.record_len (e : Event E) : (s.record e).len = s.len := rfl
@[simp] theorem State.record_old (e : Event E) : (s.record e).old = s.old := rfl
@[simp] theorem State.record_new (e : Event E) : (s.record e).new = s.new := rfl
@[simp] theorem State.record_trace (e : Event E) : (s.record e).trace = s.trace ++ [e] := rfl
@[simp] theorem State.record_outcomes (e : Event E) : (s.record e).outcomes = s.outcomes := rfl
@[simp] theorem State.record_requests (e : Event E) : (s.record e).requests = s.requests := rfl
@[simp] theorem State.record_exchAnswers (e : Event E) : (s.record e).exchAnswers = s.exchAnswers := rfl
@[simp] theorem State.record_lineAnswers (e : Event E) : (s.record e).lineAnswers = s.lineAnswers := rfl
@[simp] theorem State.record_draws (e : Event E) : (s.record e).draws = s.draws := rfl

@[simp] theorem State.answer_params (o : OpOutcome E) : (s.answer o).params = s.params := rfl
@[simp] theorem State.answer_mode (o : OpOutcome E) : (s.answer o).mode = s.mode := rfl
@[simp] theorem State.answer_cfg (o : OpOutcome E) : (s.answer o).cfg = s.cfg := rfl
@[simp] theorem State.answer_ce (o : OpOutcome E) : (s.answer o).ce = s.ce := rfl
@[simp] theorem State.answer_csn (o : OpOutcome E) : (s.answer o).csn = s.csn := rfl
@[simp] theorem State.answer_live (o : OpOutcome E) : (s.answer o).live = s.live := rfl
@[simp] theorem State.answer_fault (o : OpOutcome E) : (s.answer o).fault = s.fault := rfl
@[simp] theorem State.answer_buf (o : OpOutcome E) : (s.answer o).buf = s.buf := rfl
@[simp] theorem State.answer_len (o : OpOutcome E) : (s.answer o).len = s.len := rfl
@[simp] theorem State.answer_old (o : OpOutcome E) : (s.answer o).old = s.old := rfl
@[simp] theorem State.answer_new (o : OpOutcome E) : (s.answer o).new = s.new := rfl
@[simp] theorem State.answer_trace (o : OpOutcome E) : (s.answer o).trace = s.trace := rfl
@[simp] theorem State.answer_outcomes (o : OpOutcome E) : (s.answer o).outcomes = s.outcomes ++ [o] := rfl
@[simp] theorem State.answer_requests (o : OpOutcome E) : (s.answer o).requests = s.requests := rfl
@[simp] theorem State.answer_exchAnswers (o : OpOutcome E) : (s.answer o).exchAnswers = s.exchAnswers := rfl
@[simp] theorem State.answer_lineAnswers (o : OpOutcome E) : (s.answer o).lineAnswers = s.lineAnswers := rfl
@[simp] theorem State.answer_draws (o : OpOutcome E) : (s.answer o).draws = s.draws := rfl

@[simp] theorem State.setRequests_params (x : List Request) : (s.setRequests x).params = s.params := rfl
@[simp] theorem State.setRequests_mode (x : List Request) : (s.setRequests x).mode = s.mode := rfl
@[simp] theorem State.setRequests_cfg (x : List Request) : (s.setRequests x).cfg = s.cfg := rfl
@[simp] theorem State.setRequests_ce (x : List Request) : (s.setRequests x).ce = s.ce := rfl
@[simp] theorem State.setRequests_csn (x : List Request) : (s.setRequests x).csn = s.csn := rfl
@[simp] theorem State.setRequests_live (x : List Request) : (s.setRequests x).live = s.live := rfl
@[simp] theorem State.setRequests_fault (x : List Request) : (s.setRequests x).fault = s.fault := rfl
@[simp] theorem State.setRequests_buf (x : List Request) : (s.setRequests x).buf = s.buf := rfl
@[simp] theorem State.setRequests_len (x : List Request) : (s.setRequests x).len = s.len := rfl
@[simp] theorem State.setRequests_old (x : List Request) : (s.setRequests x).old = s.old := rfl
@[simp] theorem State.setRequests_new (x : List Request) : (s.setRequests x).new = s.new := rfl
@[simp] theorem State.setRequests_trace (x : List Request) : (s.setRequests x).trace = s.trace := rfl
@[simp] theorem State.setRequests_outcomes (x : List Request) : (s.setRequests x).outcomes = s.outcomes := rfl
@[simp] theorem State.setRequests_requests (x : List Request) : (s.setRequests x).requests = x := rfl
@[simp] theorem State.setRequests_exchAnswers (x : List Request) : (s.setRequests x).exchAnswers = s.exchAnswers := rfl
@[simp] theorem State.setRequests_lineAnswers (x : List Request) : (s.setRequests x).lineAnswers = s.lineAnswers := rfl
@[simp] theorem State.setRequests_draws (x : List Request) : (s.setRequests x).draws = s.draws := rfl

@[simp] theorem State.setExchAnswers_params (x : List (Answer E)) : (s.setExchAnswers x).params = s.params := rfl
@[simp] theorem State.setExchAnswers_mode (x : List (Answer E)) : (s.setExchAnswers x).mode = s.mode := rfl
@[simp] theorem State.setExchAnswers_cfg (x : List (Answer E)) : (s.setExchAnswers x).cfg = s.cfg := rfl
@[simp] theorem State.setExchAnswers_ce (x : List (Answer E)) : (s.setExchAnswers x).ce = s.ce := rfl
@[simp] theorem State.setExchAnswers_csn (x : List (Answer E)) : (s.setExchAnswers x).csn = s.csn := rfl
@[simp] theorem State.setExchAnswers_live (x : List (Answer E)) : (s.setExchAnswers x).live = s.live := rfl
@[simp] theorem State.setExchAnswers_fault (x : List (Answer E)) : (s.setExchAnswers x).fault = s.fault := rfl
@[simp] theorem State.setExchAnswers_buf (x : List (Answer E)) : (s.setExchAnswers x).buf = s.buf := rfl
@[simp] theorem State.setExchAnswers_len (x : List (Answer E)) : (s.setExchAnswers x).len = s.len := rfl
@[simp] theorem State.setExchAnswers_old (x : List (Answer E)) : (s.setExchAnswers x).old = s.old := rfl
@[simp] theorem State.setExchAnswers_new (x : List (Answer E)) : (s.setExchAnswers x).new = s.new := rfl
@[simp] theorem State.setExchAnswers_trace (x : List (Answer E)) : (s.setExchAnswers x).trace = s.trace := rfl
@[simp] theorem State.setExchAnswers_outcomes (x : List (Answer E)) : (s.setExchAnswers x).outcomes = s.outcomes := rfl
@[simp] theorem State.setExchAnswers_requests (x : List (Answer E)) : (s.setExchAnswers x).requests = s.requests := rfl
@[simp] theorem State.setExchAnswers_exchAnswers (x : List (Answer E)) : (s.setExchAnswers x).exchAnswers = x := rfl
@[simp] theorem State.setExchAnswers_lineAnswers (x : List (Answer E)) : (s.setExchAnswers x).lineAnswers = s.lineAnswers := rfl
@[simp] theorem State.setExchAnswers_draws (x : List (Answer E)) : (s.setExchAnswers x).draws = s.draws := rfl

@[simp] theorem State.setLineAnswers_params (x : List Bool) : (s.setLineAnswers x).params = s.params := rfl
@[simp] theorem State.setLineAnswers_mode (x : List Bool) : (s.setLineAnswers x).mode = s.mode := rfl
@[simp] theorem State.setLineAnswers_cfg (x : List Bool) : (s.setLineAnswers x).cfg = s.cfg := rfl
@[simp] theorem State.setLineAnswers_ce (x : List Bool) : (s.setLineAnswers x).ce = s.ce := rfl
@[simp] theorem State.setLineAnswers_csn (x : List Bool) : (s.setLineAnswers x).csn = s.csn := rfl
@[simp] theorem State.setLineAnswers_live (x : List Bool) : (s.setLineAnswers x).live = s.live := rfl
@[simp] theorem State.setLineAnswers_fault (x : List Bool) : (s.setLineAnswers x).fault = s.fault := rfl
@[simp] theorem State.setLineAnswers_buf (x : List Bool) : (s.setLineAnswers x).buf = s.buf := rfl
@[simp] theorem State.setLineAnswers_len (x : List Bool) : (s.setLineAnswers x).len = s.len := rfl
@[simp] theorem State.setLineAnswers_old (x : List Bool) : (s.setLineAnswers x).old = s.old := rfl
@[simp] theorem State.setLineAnswers_new (x : List Bool) : (s.setLineAnswers x).new = s.new := rfl
@[simp] theorem State.setLineAnswers_trace (x : List Bool) : (s.setLineAnswers x).trace = s.trace := rfl
@[simp] theorem State.setLineAnswers_outcomes (x : List Bool) : (s.setLineAnswers x).outcomes = s.outcomes := rfl
@[simp] theorem State.setLineAnswers_requests (x : List Bool) : (s.setLineAnswers x).requests = s.requests := rfl
@[simp] theorem State.setLineAnswers_exchAnswers (x : List Bool) : (s.setLineAnswers x).exchAnswers = s.exchAnswers := rfl
@[simp] theorem State.setLineAnswers_lineAnswers (x : List Bool) : (s.setLineAnswers x).lineAnswers = x := rfl
@[simp] theorem State.setLineAnswers_draws (x : List Bool) : (s.setLineAnswers x).draws = s.draws := rfl

@[simp] theorem State.draw_params : s.draw.params = s.params := rfl
@[simp] theorem State.draw_mode : s.draw.mode = s.mode := rfl
@[simp] theorem State.draw_cfg : s.draw.cfg = s.cfg := rfl
@[simp] theorem State.draw_ce : s.draw.ce = s.ce := rfl
@[simp] theorem State.draw_csn : s.draw.csn = s.csn := rfl
@[simp] theorem State.draw_live : s.draw.live = s.live := rfl
@[simp] theorem State.draw_fault : s.draw.fault = s.fault := rfl
@[simp] theorem State.draw_buf : s.draw.buf = s.buf := rfl
@[simp] theorem State.draw_len : s.draw.len = s.len := rfl
@[simp] theorem State.draw_old : s.draw.old = s.old := rfl
@[simp] theorem State.draw_new : s.draw.new = s.new := rfl
@[simp] theorem State.draw_trace : s.draw.trace = s.trace := rfl
@[simp] theorem State.draw_outcomes : s.draw.outcomes = s.outcomes := rfl
@[simp] theorem State.draw_requests : s.draw.requests = s.requests := rfl
@[simp] theorem State.draw_exchAnswers : s.draw.exchAnswers = s.exchAnswers := rfl
@[simp] theorem State.draw_lineAnswers : s.draw.lineAnswers = s.lineAnswers := rfl
@[simp] theorem State.draw_draws : s.draw.draws = s.draws + 1 := rfl

@[simp] theorem State.setLine_params (l : Line) (b : Bool) : (s.setLine l b).params = s.params := by cases l <;> rfl
@[simp] theorem State.setLine_mode (l : Line) (b : Bool) : (s.setLine l b).mode = s.mode := by cases l <;> rfl
@[simp] theorem State.setLine_cfg (l : Line) (b : Bool) : (s.setLine l b).cfg = s.cfg := by cases l <;> rfl
@[simp] theorem State.setLine_live (l : Line) (b : Bool) : (s.setLine l b).live = s.live := by cases l <;> rfl
@[simp] theorem State.setLine_fault (l : Line) (b : Bool) : (s.setLine l b).fault = s.fault := by cases l <;> rfl
@[simp] theorem State.setLine_buf (l : Line) (b : Bool) : (s.setLine l b).buf = s.buf := by cases l <;> rfl
@[simp] theorem State.setLine_len (l : Line) (b : Bool) : (s.setLine l b).len = s.len := by cases l <;> rfl
@[simp] theorem State.setLine_old (l : Line) (b : Bool) : (s.setLine l b).old = s.old := by cases l <;> rfl
@[simp] theorem State.setLine_new (l : Line) (b : Bool) : (s.setLine l b).new = s.new := by cases l <;> rfl
@[simp] theorem State.setLine_trace (l : Line) (b : Bool) : (s.setLine l b).trace = s.trace := by cases l <;> rfl
@[simp] theorem State.setLine_outcomes (l : Line) (b : Bool) : (s.setLine l b).outcomes = s.outcomes := by cases l <;> rfl
@[simp] theorem State.setLine_requests (l : Line) (b : Bool) : (s.setLine l b).requests = s.requests := by cases l <;> rfl
@[simp] theorem State.setLine_exchAnswers (l : Line) (b : Bool) : (s.setLine l b).exchAnswers = s.exchAnswers := by cases l <;> rfl
@[simp] theorem State.setLine_lineAnswers (l : Line) (b : Bool) : (s.setLine l b).lineAnswers = s.lineAnswers := by cases l <;> rfl
@[simp] theorem State.setLine_draws (l : Line) (b : Bool) : (s.setLine l b).draws = s.draws := by cases l <;> rfl

@[simp] theorem State.setLine_ce_ce (b : Bool) : (s.setLine .ce b).ce = b := rfl
@[simp] theorem State.setLine_ce_csn (b : Bool) : (s.setLine .ce b).csn = s.csn := rfl
@[simp] theorem State.setLine_csn_csn (b : Bool) : (s.setLine .csn b).csn = b := rfl
@[simp] theorem State.setLine_csn_ce (b : Bool) : (s.setLine .csn b).ce = s.ce := rfl

end Sys2Proof.Machine
end

