-- ==== Sys2Proof/Laws/Ops.lean ====
section
/-! SUPPORT. What each shared operation can do, said once: sequences of steps, line writes, exchanges,
the transaction, the host port. -/

namespace Sys2Proof.Machine

/-! ## Sequences of steps -/

@[simp] theorem Res.andThen_done {α β : Type} (a : α) (s : State) (f : α → State → Res β) :
    (Res.done a s).andThen f = f a s := rfl

@[simp] theorem Res.andThen_stop {α β : Type} (e : Early) (s : State) (f : α → State → Res β) :
    (Res.stop e s : Res α).andThen f = .stop e s := rfl

@[simp] theorem Res.state_done {α : Type} (a : α) (s : State) : (Res.done a s).state = s := rfl

@[simp] theorem Res.state_stop {α : Type} (e : Early) (s : State) : (Res.stop e s : Res α).state = s := rfl

@[simp] theorem Res.outcome_done (v : Value) (s : State) : (Res.done v s).outcome = .ok v := rfl

@[simp] theorem Res.outcome_stop (e : Early) (s : State) : (Res.stop e s : Res Value).outcome = e.toOutcome := rfl

theorem Res.andThen_eq_done {α β : Type} {r : Res α} {f : α → State → Res β} {b : β} {t : State} :
    r.andThen f = .done b t ↔ ∃ a s, r = .done a s ∧ f a s = .done b t := by
  cases r <;> simp

theorem Res.andThen_eq_stop {α β : Type} {r : Res α} {f : α → State → Res β} {e : Early} {t : State} :
    r.andThen f = .stop e t ↔ r = .stop e t ∨ ∃ a s, r = .done a s ∧ f a s = .stop e t := by
  cases r <;> simp

theorem Res.andThen_assoc {α β γ : Type} (r : Res α) (f : α → State → Res β) (g : β → State → Res γ) :
    (r.andThen f).andThen g = r.andThen fun a s => (f a s).andThen g := by
  cases r <;> rfl

/-- A relation between the states before and after that composes holds of a sequence if it holds of
its parts. -/
theorem Res.andThen_rel {α β : Type} {R : State → State → Prop} (trans : ∀ {a b c}, R a b → R b c → R a c)
    {s : State} {r : Res α} {f : α → State → Res β} (first : R s r.state)
    (second : ∀ a s1, r = .done a s1 → R s1 (f a s1).state) : R s (r.andThen f).state := by
  cases r with
  | done a s1 => exact trans first (second a s1 rfl)
  | stop e s1 => exact first

@[simp] theorem raise_eq {α : Type} (r : FaultReason) (s : State) :
    (raise r s : Res α) = .stop (.fault r) (s.setFault true) := rfl

/-! ## Line writes -/

theorem nextLine_cons {s : State} {ok : Bool} {rest : List Bool} (h : s.lineAnswers = ok :: rest) :
    s.nextLine = (ok, s.setLineAnswers rest) := by
  simp [State.nextLine, h]

theorem nextLine_nil {s : State} (h : s.lineAnswers = []) : s.nextLine = (Config.freeLineOk s.draws, s.draw) := by
  simp [State.nextLine, h]

/-- R11: a line write that succeeds. -/
theorem pin_ok {s : State} {rest : List Bool} (l : Line) (b : Bool) (h : s.lineAnswers = true :: rest) :
    pin l b s = .done () (((s.setLineAnswers rest).setLine l b).record (.pinWrite l b)) := by
  simp [pin, nextLine_cons h]

/-- R135: a line write that fails. -/
theorem pin_fails {s : State} {rest : List Bool} (l : Line) (b : Bool) (h : s.lineAnswers = false :: rest) :
    pin l b s = .stop (.fault (.lineWriteFailed l))
      ((((s.setLineAnswers rest).setLine l b).record (.pinWrite l b)).setFault true) := by
  simp [pin, nextLine_cons h]

/-- Everything a line write can do: it records its event and sets its level, and either goes on or
raises the fault of R135. -/
theorem pin_cases (l : Line) (b : Bool) (s : State) :
    ∃ s1, (s1 = s.draw ∨ ∃ rest, s1 = s.setLineAnswers rest) ∧
      (pin l b s = .done () ((s1.setLine l b).record (.pinWrite l b)) ∨
       pin l b s = .stop (.fault (.lineWriteFailed l)) (((s1.setLine l b).record (.pinWrite l b)).setFault true)) := by
  cases h : s.lineAnswers with
  | nil =>
    refine ⟨s.draw, .inl rfl, ?_⟩
    cases hf : Config.freeLineOk s.draws <;> simp [pin, nextLine_nil h, hf]
  | cons ok rest =>
    refine ⟨s.setLineAnswers rest, .inr ⟨rest, rfl⟩, ?_⟩
    cases ok <;> simp [pin, nextLine_cons h]

/-! ## Exchanges -/

@[simp] theorem fit_length (d n : Nat) (rx : List Byte) : (fit d n rx).length = n := by
  simp [fit]

/-- D31: an answer of the right length is taken as it is. -/
theorem fit_eq {d n : Nat} {rx : List Byte} (h : rx.length = n) : fit d n rx = rx := by
  subst h; simp [fit]

/-- R11: an exchange the environment answers in full. -/
theorem exchange_ok {s : State} {tx rx : List Byte} {rest : List Answer} (h : s.exchAnswers = .ok rx :: rest)
    (hl : rx.length = tx.length) :
    exchange tx s = (.ok rx, (s.setExchAnswers rest).record (.exchange tx (.ok rx))) := by
  simp [exchange, State.nextAnswer, h, fit_eq hl]

/-- R11: an exchange the environment fails. -/
theorem exchange_err {s : State} {tx : List Byte} {e : TransportError} {rest : List Answer}
    (h : s.exchAnswers = .err e :: rest) :
    exchange tx s = (.err e, (s.setExchAnswers rest).record (.exchange tx (.err e))) := by
  simp [exchange, State.nextAnswer, h]

/-- Everything an exchange can do: one event, and an answer that is an error or has the frame's
length. -/
theorem exchange_cases (tx : List Byte) (s : State) :
    ∃ s1, (s1 = s.draw ∨ ∃ rest, s1 = s.setExchAnswers rest) ∧
      ((∃ e, exchange tx s = (.err e, s1.record (.exchange tx (.err e)))) ∨
       ∃ rx, rx.length = tx.length ∧ exchange tx s = (.ok rx, s1.record (.exchange tx (.ok rx)))) := by
  cases h : s.exchAnswers with
  | nil =>
    refine ⟨s.draw, .inl rfl, ?_⟩
    cases hf : Config.freeExchangeError TransportError s.draws with
    | none => exact .inr ⟨fit s.draws tx.length [], by simp, by simp [exchange, State.nextAnswer, h, hf]⟩
    | some e => exact .inl ⟨e, by simp [exchange, State.nextAnswer, h, hf]⟩
  | cons a rest =>
    refine ⟨s.setExchAnswers rest, .inr ⟨rest, rfl⟩, ?_⟩
    cases a with
    | err e => exact .inl ⟨e, exchange_err h⟩
    | ok rx => exact .inr ⟨fit s.draws tx.length rx, by simp, by simp [exchange, State.nextAnswer, h]⟩

/-! ## The buffer -/

@[simp] theorem freeTail_length (d i : Nat) : (freeTail d i).length = Config.BUF_LEN - i := by
  simp [freeTail]

/-- R38: a register is 1 to 5 bytes wide. -/
theorem widthOk_iff {w : Nat} : widthOk w = true ↔ 1 ≤ w ∧ w ≤ 5 := by
  rw [widthOk, Bool.and_eq_true, decide_eq_true_eq, decide_eq_true_eq]
  exact Iff.rfl

/-- R38, R96: a register write fits the buffer. -/
theorem writeRegister_short {a : RegAddr} {w : Nat} {v : List Byte} (h : Command.wf (.writeRegister a w v) = true) :
    frameLen (.writeRegister a w v) ≤ Config.BUF_LEN := by
  have h := h
  rw [Command.wf, Bool.and_eq_true, widthOk_iff] at h
  simp [frameLen, Config.BUF_LEN]; omega

/-- R38, R96: a register read fits the buffer. -/
theorem readRegister_short {a : RegAddr} {w : Nat} (h : widthOk w = true) :
    frameLen (.readRegister a w) ≤ Config.BUF_LEN := by
  rw [widthOk_iff] at h
  simp [frameLen, Config.BUF_LEN]; omega

/-- R95: a frame has the length its command fixes. -/
theorem encodeFrame_length {p : Config.Params} {c : Command} (h : c.wf = true) : (encodeFrame p c).length = frameLen c := by
  cases c <;> simp_all [encodeFrame, frameLen, Command.wf] <;> omega

/-- R54: no frame is empty. -/
theorem encodeFrame_pos (p : Config.Params) (c : Command) : 1 ≤ (encodeFrame p c).length := by
  cases c <;> simp [encodeFrame]

theorem region_of_prefix {s : State} {x y : List Byte} (hb : s.buf = x ++ y) (hl : s.len = x.length) :
    s.region = x := by
  simp [State.region, hb, hl]

/-! ## The transaction -/

/-- R96: a command that has no frame faults before any event. -/
theorem transact_too_long {p : Config.Params} {c : Command} {s : State} (h : Config.BUF_LEN < frameLen c) :
    transact p c s = .stop (.fault .payloadTooLong) (s.setFault true) := by
  simp [transact, h]

/-- A line write leaves the buffer alone. -/
theorem pin_done_buf {l : Line} {b : Bool} {s t : State} (h : pin l b s = .done () t) :
    t.buf = s.buf ∧ t.len = s.len := by
  obtain ⟨s1, hs1, h1 | h1⟩ := pin_cases l b s <;> rw [h1] at h
  · obtain rfl : _ = t := by injection h
    obtain rfl | ⟨rest, rfl⟩ := hs1 <;> simp
  · cases h

/-- R100: what is exchanged is the command's frame. -/
theorem transact_eq {p : Config.Params} {c : Command} {s : State} (hlen : frameLen c ≤ Config.BUF_LEN) :
    transact p c s =
      (pin .csn false (s.allocBuf (encodeFrame p c))).andThen fun _ s1 =>
        closeTransaction c (exchange (encodeFrame p c) s1).1 (exchange (encodeFrame p c) s1).2 := by
  rw [transact, if_neg (Nat.not_lt.mpr hlen)]
  cases h : pin .csn false (s.allocBuf (encodeFrame p c)) with
  | stop e t => rfl
  | done a t =>
    obtain ⟨hb, hl⟩ := pin_done_buf h
    have : t.region = encodeFrame p c :=
      region_of_prefix (y := freeTail s.draws (encodeFrame p c).length) (by simp [hb, State.allocBuf])
        (by simp [hl, State.allocBuf])
    simp only [Res.andThen_done, this]

/-- The two line answers a transaction takes. -/
theorem Answers.two_lines {s : State} {xs : List Answer} (h : Answers s 2 xs) :
    s.lineAnswers = true :: true :: s.lineAnswers.drop 2 := by
  obtain ⟨hl, -⟩ := h
  match h : s.lineAnswers, hl with
  | a :: b :: ls, hl => simp [List.replicate] at hl; simp [hl]

/-- The one exchange answer a transaction takes. -/
theorem Answers.one_exchange {s : State} {n : Nat} {a : Answer} {xs : List Answer} (h : Answers s n (a :: xs)) :
    s.exchAnswers = a :: s.exchAnswers.drop 1 := by
  obtain ⟨-, es, he⟩ := h
  simp [← he]

/-- R20: the region of a buffer that holds `x` there, filled with as many bytes. -/
theorem fillRegion_of {s : State} {x y rx : List Byte} (hb : s.buf = x ++ y) (hl : s.len = x.length)
    (hrx : rx.length = x.length) :
    (s.fillRegion rx).buf = rx ++ y ∧ (s.fillRegion rx).region = rx := by
  have h : (s.fillRegion rx).buf = rx ++ y := by simp [State.fillRegion, hb, hrx]
  exact ⟨h, region_of_prefix h (by simp [State.fillRegion, hl, hrx])⟩

/-- R100: the end of a transaction whose exchange and last line write succeed. -/
theorem closeTransaction_ok {c : Command} {s : State} {x y rx : List Byte} {ls : List Bool} (hb : s.buf = x ++ y)
    (hl : s.len = x.length) (hrx : rx.length = x.length) (hpos : 1 ≤ rx.length) (hls : s.lineAnswers = true :: ls) :
    closeTransaction c (.ok rx) s =
      .done (statusOf rx, decodeResponse c rx)
        ((((s.setLineAnswers ls).setLine .csn true).record (.pinWrite .csn true)).setBuf (rx ++ y) s.len) := by
  obtain ⟨h1, h2⟩ := fillRegion_of
    (s := ((s.setLineAnswers ls).setLine .csn true).record (.pinWrite .csn true)) (rx := rx)
    (by simpa using hb) (by simpa using hl) hrx
  have h3 : statusOf (rx ++ y) = statusOf rx := by
    cases rx with
    | nil => simp at hpos
    | cons b r => rfl
  rw [closeTransaction, pin_ok _ _ hls, Res.andThen_done]
  simp only [h2, h1, h3]
  rw [← h1]
  rfl

/-- R100: a transaction that succeeds. -/
theorem transact_ok {p : Config.Params} {c : Command} {s : State} {rx : List Byte} (hwf : c.wf = true) (hlen : frameLen c ≤ Config.BUF_LEN)
    (ha : Answers s 2 [.ok rx]) (hrx : rx.length = frameLen c) :
    transact p c s = .done (statusOf rx, decodeResponse c rx) (s.afterTransaction (encodeFrame p c) rx) := by
  have hf := encodeFrame_length (p := p) hwf
  have hpos : 1 ≤ rx.length := by have := encodeFrame_pos p c; omega
  rw [transact_eq hlen, pin_ok _ _ (s := s.allocBuf (encodeFrame p c)) ha.two_lines, Res.andThen_done,
    exchange_ok (rx := rx) (rest := s.exchAnswers.drop 1) (by simpa [State.allocBuf] using ha.one_exchange) (by omega)]
  rw [closeTransaction_ok (x := encodeFrame p c) (y := freeTail s.draws (encodeFrame p c).length)
    (ls := s.lineAnswers.drop 2) (by simp [State.allocBuf]) (by simp [State.allocBuf]) (by omega) hpos (by simp)]
  have h : ∀ t t' : State, t = t' → (Res.done (statusOf rx, decodeResponse c rx) t) = .done (statusOf rx, decodeResponse c rx) t' :=
    fun t t' h => by rw [h]
  apply h
  ext1 <;> simp [State.allocBuf, State.afterTransaction, transactionEvents]

/-- R100: a transaction whose exchange fails: the error is answered after chip-select is released. -/
theorem transact_err {p : Config.Params} {c : Command} {s : State} {e : TransportError} (hlen : frameLen c ≤ Config.BUF_LEN)
    (ha : Answers s 2 [.err e]) :
    transact p c s = .stop (.transportFailure e) (s.afterFailedTransaction (encodeFrame p c) e) := by
  rw [transact_eq hlen, pin_ok _ _ (s := s.allocBuf (encodeFrame p c)) ha.two_lines, Res.andThen_done,
    exchange_err (e := e) (rest := s.exchAnswers.drop 1) (by simpa [State.allocBuf] using ha.one_exchange)]
  simp only [closeTransaction]
  rw [pin_ok (rest := s.lineAnswers.drop 2) _ _ (by simp [State.loseBuf]), Res.andThen_done]
  have h : ∀ t t' : State, t = t' → (Res.stop (.transportFailure e) t : Res (Byte × Response)) = .stop (.transportFailure e) t' :=
    fun t t' h => by rw [h]
  apply h
  ext1 <;> simp [State.loseBuf, State.allocBuf, State.afterFailedTransaction, transactionEvents]

/-! ## The host port -/

/-- R98: a ready block performs the operation and answers its outcome. -/
theorem hostPort_ready {s : State} (op : State → Res Value) (h : Ready s) : hostPort op s = .next (op s).finish := by
  simp [hostPort, h.1, h.2]

/-- R136: any other block refuses it. -/
theorem hostPort_refuses {s : State} (op : State → Res Value) (h : ¬ Ready s) :
    hostPort op s = .next (s.answer (.refused .notLive)) := by
  rw [hostPort, if_neg (show ¬ (s.live = true ∧ s.fault = false) from h)]

end Sys2Proof.Machine
end

