-- ==== Sys2Proof/Laws/Codec.lean ====
section
/-! SUPPORT. With valid parameters each reader of a host request's operands reads back what its writer
wrote, and leaves the rest; and the widths of mutated register values. -/

namespace Sys2Proof

theorem getNat_putNatFuel (n : Nat) : ∀ fuel, n ≤ fuel → ∀ r, getNat (putNatFuel fuel n ++ r) = some (n, r) := by
  intro fuel
  induction fuel generalizing n with
  | zero => intro h r; obtain rfl : n = 0 := by omega
            rfl
  | succ fuel ih =>
    intro h r
    unfold putNatFuel
    split
    · rename_i h1
      have e : (BitVec.ofNat 8 n).toNat = n := by rw [BitVec.toNat_ofNat, Nat.mod_eq_of_lt]; omega
      simp only [List.cons_append, List.nil_append, getNat, e, h1, if_true]
    · rename_i h1
      have e : (BitVec.ofNat 8 (128 + n % 128)).toNat = 128 + n % 128 := by
        rw [BitVec.toNat_ofNat, Nat.mod_eq_of_lt]; have := Nat.mod_lt n (by decide : 128 > 0); omega
      rw [List.cons_append, getNat, e, if_neg (by omega), ih (n / 128) (by omega)]
      simp; omega

theorem getNat_putNat (n : Nat) (r) : getNat (putNat n ++ r) = some (n, r) := getNat_putNatFuel n n (Nat.le_refl _) r

theorem getRaw_append (v : List Byte) (n : Nat) (h : v.length = n) (r) : getRaw n (v ++ r) = some (v, r) := by
  subst h; simp [getRaw]

theorem getBytes_putBytes (v : List Byte) (r) : getBytes (putBytes v ++ r) = some (v, r) := by
  simp [getBytes, putBytes, getNat_putNat, getRaw_append v _ rfl]

theorem getMany_flatMap {α} (put : α → List Byte) (get : List Byte → Option (α × List Byte)) (xs : List α) (h : ∀ x ∈ xs, ∀ r, get (put x ++ r) = some (x, r)) (r) :
   getMany get xs.length (xs.flatMap put ++ r) = some (xs, r) := by
  induction xs with
  | nil => rfl
  | cons x xs ih =>
    simp only [List.length_cons, getMany, List.flatMap_cons, List.append_assoc]
    rw [h x (by simp)]
    simp [ih (fun y hy => h y (by simp [hy]))]

theorem getList_putList {α} (put : α → List Byte) (get : List Byte → Option (α × List Byte)) (xs : List α) (h : ∀ x ∈ xs, ∀ r, get (put x ++ r) = some (x, r)) (r) :
   getList get (putList put xs ++ r) = some (xs, r) := by
  simp [getList, putList, getNat_putNat, getMany_flatMap put get xs h]

theorem getAddr_putAddr (a : RegAddr) (r) : getAddr (putAddr a ++ r) = some (a, r) := by
  have : ∀ a : RegAddr, (a.setWidth 8 : Byte).toNat < 32 ∧ (a.setWidth 8 : Byte).setWidth 5 = a := by decide
  have h := this a
  simp only [getAddr, putAddr, getByte, List.cons_append, List.nil_append, Option.bind_some, h.1, if_true, h.2]

theorem getWidth_putWidth (w : Nat) (h : widthOk w = true) (r) : getWidth (putWidth w ++ r) = some (w, r) := by
  have : 1 ≤ w := (Machine.widthOk_iff.1 h).1
  simp [getWidth, putWidth, getNat_putNat]; omega

/-- R55: byte 0 of a register command, read back. -/
theorem opcodeByte_fields : ∀ (dir : BitVec 3) (a : RegAddr), dirOf (opcodeByte dir a) = dir ∧ addrOf (opcodeByte dir a) = a := by
  decide

theorem kindOf_read (p : Config.Params) (a : RegAddr) : kindOf p (opcodeByte Config.DIR_READ a) = some .readRegister := by
  simp [kindOf, (opcodeByte_fields _ a).1]

theorem kindOf_write (p : Config.Params) (a : RegAddr) : kindOf p (opcodeByte Config.DIR_WRITE a) = some .writeRegister := by
  simp [kindOf, (opcodeByte_fields _ a).1, show Config.DIR_WRITE ≠ Config.DIR_READ by decide]

/-- R62, R64: with valid parameters each of the six other opcodes spells its command. -/
theorem kindOf_opcodes {p : Config.Params} (h : p.Valid) :
    kindOf p p.OP_R_RX_PAYLOAD = some .readRxPayload ∧ kindOf p p.OP_R_RX_PL_WID = some .readRxPayloadWidth ∧
    kindOf p p.OP_W_TX_PAYLOAD = some .writeTxPayload ∧ kindOf p p.OP_FLUSH_TX = some .flushTx ∧
    kindOf p p.OP_FLUSH_RX = some .flushRx ∧ kindOf p p.OP_ACTIVATE = some .activate := by
  obtain ⟨hn, hd, -⟩ := h
  simp only [Config.Params.opcodes, List.nodup_cons, List.mem_cons, List.not_mem_nil, or_false, not_or, List.nodup_nil,
    and_true, not_false_eq_true, forall_eq_or_imp, forall_eq] at hn hd
  have key : ∀ b : Byte, b.extractLsb' 5 3 ≠ Config.DIR_READ ∧ b.extractLsb' 5 3 ≠ Config.DIR_WRITE →
      ¬ dirOf b = Config.DIR_READ ∧ ¬ dirOf b = Config.DIR_WRITE := fun b hb => hb
  obtain ⟨h1, h2, h3, h4, h5, h6⟩ := hd
  refine ⟨?_, ?_, ?_, ?_, ?_, ?_⟩
  · simp [kindOf, key _ h1]
  · simp [kindOf, key _ h3, Ne.symm hn.1.2.1]
  · simp [kindOf, key _ h2, Ne.symm hn.1.1, hn.2.1.1]
  · simp [kindOf, key _ h4, Ne.symm hn.1.2.2.1, Ne.symm hn.2.1.2.1, Ne.symm hn.2.2.1.1]
  · simp [kindOf, key _ h5, Ne.symm hn.1.2.2.2.1, Ne.symm hn.2.1.2.2.1, Ne.symm hn.2.2.1.2.1, Ne.symm hn.2.2.2.1.1]
  · simp [kindOf, key _ h6, Ne.symm hn.1.2.2.2.2, Ne.symm hn.2.1.2.2.2, Ne.symm hn.2.2.1.2.2, Ne.symm hn.2.2.2.1.2, Ne.symm hn.2.2.2.2]

theorem getCommand_putCommand {p : Config.Params} (hp : p.Valid) (c : Command) (h : c.wf = true) (r) :
    getCommand p (putCommand p c ++ r) = some (c, r) := by
  obtain ⟨k1, k2, k3, k4, k5, k6⟩ := kindOf_opcodes hp
  cases c with
  | readRegister a w => simp [getCommand, putCommand, getByte, kindOf_read, opcodeByte_fields, getWidth_putWidth w h]
  | writeRegister a w v =>
    simp [Command.wf] at h
    simp [getCommand, putCommand, getByte, kindOf_write, opcodeByte_fields, getWidth_putWidth w h.1, getRaw_append v w h.2]
  | readRxPayload n => simp [getCommand, putCommand, getByte, k1, getNat_putNat]
  | readRxPayloadWidth => simp [getCommand, putCommand, getByte, k2]
  | writeTxPayload n => simp [getCommand, putCommand, getByte, k3, getBytes_putBytes]
  | flushTx => simp [getCommand, putCommand, getByte, k4]
  | flushRx => simp [getCommand, putCommand, getByte, k5]
  | activate => simp [getCommand, putCommand, getByte, k6]

theorem getResult_putResult (x : MutResult) (r) : getResult (putResult x ++ r) = some (x, r) := by
  cases x <;> simp [getResult, putResult, getByte, getNat_putNat, getBytes_putBytes]

theorem getEdit_putEdit (x : Edit) (r) : getEdit (putEdit x ++ r) = some (x, r) := by
  cases x <;> simp [getEdit, putEdit, getByte, getNat_putNat, getBytes_putBytes]

theorem getSel_putSel (x : ResultSel) (r) : getSel (putSel x ++ r) = some (x, r) := by
  cases x <;> simp [getSel, putSel, getByte, getNat_putNat, getResult_putResult]

theorem getRow_putRow (x : MutRow) (r) : getRow (putRow x ++ r) = some (x, r) := by
  simp [getRow, putRow, getBytes_putBytes, getResult_putResult]

theorem getMutator_putMutator (x : Mutator) (r) : getMutator (putMutator x ++ r) = some (x, r) := by
  simp [getMutator, putMutator, getList_putList putRow getRow _ (fun x _ r => getRow_putRow x r), getList_putList putEdit getEdit _ (fun x _ r => getEdit_putEdit x r), getSel_putSel]

theorem getRegValue_putRegValue (a w v) (h : widthOk w = true) (hv : v.length = w) (r) : getRegValue (putRegValue a w v ++ r) = some ((a, w, v), r) := by
  simp [getRegValue, putRegValue, getAddr_putAddr, getWidth_putWidth w h, getRaw_append v w hv]

theorem getBatchOp_putBatchOp {p : Config.Params} (hp : p.Valid) (x : BatchOp) (h : x.wf = true) (r) : getBatchOp p (putBatchOp p x ++ r) = some (x, r) := by
  cases x with
  | writeRegister a w v => simp [BatchOp.wf] at h; simp [getBatchOp, putBatchOp, getByte, getRegValue_putRegValue a w v h.1 h.2]
  | updateRegister a w f => simp [BatchOp.wf] at h; simp [getBatchOp, putBatchOp, getByte, getAddr_putAddr, getWidth_putWidth w h.1, getMutator_putMutator]
  | updateConfig f => simp [getBatchOp, putBatchOp, getByte, getMutator_putMutator]
  | sendCommand c => simp [getBatchOp, putBatchOp, getByte, getCommand_putCommand hp c h]

/-- R9: a batch that is given is read back; no byte at all is the empty one. -/
theorem getBatch_putList {p : Config.Params} (hp : p.Valid) (xs : List BatchOp) (h : ∀ x ∈ xs, x.wf = true) (r) :
    getBatch p (putList (putBatchOp p) xs ++ r) = some (xs, r) := by
  have hl := getList_putList (putBatchOp p) (getBatchOp p) xs (fun x hx r => getBatchOp_putBatchOp hp x (h x hx) r) r
  cases hb : putList (putBatchOp p) xs ++ r with
  | nil => rw [hb] at hl; simp [getList, getNat] at hl
  | cons b bs => rw [hb] at hl; simpa [getBatch] using hl

end Sys2Proof

namespace Sys2Proof.Machine

theorem applyEdit_length {w : Nat} {e : Edit} (he : e.wf w = true) {v : List Byte} (hv : v.length = w) : (applyEdit v e).length = w := by
  cases e <;> simp_all [applyEdit, Edit.wf]

theorem foldEdit_length {w : Nat} (es : List Edit) (he : es.all (Edit.wf w) = true) (v : List Byte) (hv : v.length = w) : (es.foldl applyEdit v).length = w := by
  induction es generalizing v with
  | nil => exact hv
  | cons e es ih =>
    simp only [List.all_cons, Bool.and_eq_true] at he
    exact ih he.2 _ (applyEdit_length he.1 hv)

theorem evalMutator_length {w : Nat} {m : Mutator} {v : List Byte} (h : m.wf w = true) (hv : v.length = w) : (evalMutator m v).1.length = w := by
  simp only [Mutator.wf, Bool.and_eq_true] at h
  unfold evalMutator
  split
  · rename_i r hr
    have := List.all_eq_true.1 h.1.1 r (List.mem_of_find?_eq_some hr)
    simpa [MutRow.wf] using this
  · exact foldEdit_length _ h.1.2 _ hv

end Sys2Proof.Machine
end

