-- ==== Sys2Proof/Laws/Exec.lean ====
section
/-! SUPPORT. What `exec` is for each instruction: one nested operation at the host port.  Every fact about
an instruction's run goes through one of these. -/

namespace Sys2Proof.Machine

/-- R69: the nested operation the host port performs for an instruction; `construct` is outside the
port's guard. -/
def hostOp (p : Config.Params) : Instr → State → Res Value
  | .wireReadRegister a w => opSendCommand p (.readRegister a w)
  | .wireWriteRegister a w v => opSendCommand p (.writeRegister a w v)
  | .wireReadRxPayload n => opSendCommand p (.readRxPayload n)
  | .wireReadRxPayloadWidth => opSendCommand p .readRxPayloadWidth
  | .wireWriteTxPayload d => opSendCommand p (.writeTxPayload d)
  | .wireFlushTx => opSendCommand p .flushTx
  | .wireFlushRx => opSendCommand p .flushRx
  | .wireActivate => opSendCommand p .activate
  | .construct batch => opConstruct p batch
  | .ceEnable => opCeEnable
  | .ceDisable => opCeDisable
  | .sendCommand c => opSendCommand p c
  | .writeRegister a w v => fun s => (opWriteRegister p a w v s).andThen fun status s1 => .done (.status status) s1
  | .readRegister a w => fun s => (opReadRegister p a w s).andThen fun x s1 => .done (.register x.1 x.2) s1
  | .updateRegister a w f => fun s => (opUpdateRegister p a w f s).andThen fun r s1 => .done (.mutator r) s1
  | .updateConfig f => fun s => (opUpdateConfig p f s).andThen fun r s1 => .done (.mutator r) s1
  | .isConnected => fun s => (opIsConnected p s).andThen fun b s1 => .done (.bool b) s1
  | .enterRx => unitOp (opEnterRx p)
  | .enterTx => unitOp (opEnterTx p)
  | .send packet => unitOp (opSend p packet)
  | .waitTxReady => unitOp (opWaitTxReady p)
  | .waitTxEmpty => unitOp (opWaitTxEmpty p)
  | .waitRxReady => fun s => (opWaitRxReady p s).andThen fun r s1 => .done (.pipe r) s1
  | .read => fun s => (opRead p s).andThen fun r s1 => .done (.payload r) s1
  | .clearInterrupts => unitOp (opClearInterrupts p)

/-- The operation of a command sent on its own, as a wire command or by `send_command`. -/
theorem hostOp_command {p : Config.Params} {i : Instr} {c : Command} (h : i = .sendCommand c ∨ i = Instr.ofCommand c) :
    hostOp p i = opSendCommand p c := by
  rcases h with rfl | rfl
  · rfl
  · cases c <;> rfl

theorem exec_construct (batch : List BatchOp) (s : State) : exec (.construct batch) s = .next (opConstruct s.params batch s).finish :=
  rfl

/-- R98, R136: `exec` of any other instruction is its operation under the port's guard. -/
theorem exec_eq_hostPort {i : Instr} (hi : ∀ batch, i ≠ .construct batch) (s : State) :
    exec i s = hostPort (hostOp s.params i) s := by
  cases i
  case construct batch => exact absurd rfl (hi batch)
  all_goals simp only [exec, hostOp]; rfl

/-- R98: a ready block performs the operation. -/
theorem exec_ready {i : Instr} {s : State} (h : Ready s) : exec i s = .next (hostOp s.params i s).finish := by
  by_cases hi : ∃ batch, i = .construct batch
  · obtain ⟨batch, rfl⟩ := hi
    rfl
  · rw [exec_eq_hostPort (fun batch hb => hi ⟨batch, hb⟩), hostPort_ready _ h]

/-- Everything `exec` can do: the operation is performed, by `construct` always and by the others when
the block is ready; or the port refuses it. -/
theorem exec_cases (i : Instr) (s : State) :
    (((∃ batch, i = .construct batch) ∨ Ready s) ∧ exec i s = .next (hostOp s.params i s).finish) ∨
    ((∀ batch, i ≠ .construct batch) ∧ ¬ Ready s ∧ exec i s = .next (s.answer (.refused .notLive))) := by
  by_cases hi : ∃ batch, i = .construct batch
  · obtain ⟨batch, rfl⟩ := hi
    exact .inl ⟨.inl ⟨batch, rfl⟩, rfl⟩
  · have hi' : ∀ batch, i ≠ .construct batch := fun batch hb => hi ⟨batch, hb⟩
    by_cases h : Ready s
    · exact .inl ⟨.inr h, exec_ready h⟩
    · exact .inr ⟨hi', h, by rw [exec_eq_hostPort hi', hostPort_refuses _ h]⟩

end Sys2Proof.Machine
end

