-- ==== Sys2Proof/Laws/Fields.lean ====
section
/-! SUPPORT. The register model's fields bit by bit, wherever the parameters put them: what a one-bit field
reads, what writing one changes, and the initial cache. -/

namespace Sys2Proof.Machine

theorem fieldMask_one (i : Nat) : fieldMask i i = 1#8 := by
  simp only [fieldMask, Nat.sub_self]; decide

/-- Bit `k` of a one in bit `i` of a byte. -/
theorem one_shiftLeft_getLsbD (i k : Nat) (hk : k < 8) : (1#8 <<< i).getLsbD k = decide (k = i) := by
  rw [BitVec.getLsbD_shiftLeft, BitVec.getLsbD_one]
  by_cases h : k < i
  · simp [h]; omega
  · simp only [hk, h, decide_true, decide_false, Bool.not_false, Bool.true_and]
    by_cases h' : k = i
    · simp [h']
    · simp [h', show ¬ k - i = 0 by omega]

/-- R73 on a one-bit field. -/
theorem getBit_eq (b : Byte) (i : Nat) : getBit b i = b.getLsbD i := by
  simp only [getBit, get, fieldMask_one]
  have h : ∀ y : Byte, (y &&& 1#8 == 1#8) = y.getLsbD 0 := by decide
  rw [h, BitVec.getLsbD_ushiftRight, Nat.add_zero]

/-- R74 on a one-bit field: that bit takes the value and every other bit stays. -/
theorem setBit_getLsbD (b : Byte) (i : Nat) (x : Bool) (k : Nat) (hk : k < 8) :
    (setBit b i x).getLsbD k = if k = i then x else b.getLsbD k := by
  simp only [setBit, set, fieldMask_one, BitVec.getLsbD_or, BitVec.getLsbD_and, BitVec.getLsbD_not,
    one_shiftLeft_getLsbD i k hk, hk, decide_true, Bool.true_and]
  cases x
  · by_cases h : k = i <;> simp [h]
  · simp only [if_true, one_shiftLeft_getLsbD i k hk]
    by_cases h : k = i <;> simp [h]

/-- R79: `PRIM_RX` reads as it was written, where it lies inside the byte. -/
theorem primRx_setPrimRx {p : Config.Params} (h : p.CFG_PRIM_RX < 8) (c : Byte) (x : Bool) :
    primRx p (setPrimRx p c x) = x := by
  rw [primRx, getBit_eq, setPrimRx, setBit_getLsbD _ _ _ _ h, if_pos rfl]

/-- R74: writing `PRIM_RX` twice is writing it once. -/
theorem setPrimRx_setPrimRx (p : Config.Params) (c : Byte) (x y : Bool) :
    setPrimRx p (setPrimRx p c x) y = setPrimRx p c y := by
  apply BitVec.eq_of_getLsbD_eq
  intro k hk
  simp only [setPrimRx, setBit_getLsbD _ _ _ _ hk]
  split <;> rfl

/-- R74: writing `PRIM_RX` leaves the other bits. -/
theorem setPrimRx_getLsbD (p : Config.Params) (c : Byte) (x : Bool) (k : Nat) (h : k ≠ p.CFG_PRIM_RX) :
    (setPrimRx p c x).getLsbD k = c.getLsbD k := by
  by_cases hk : k < 8
  · rw [setPrimRx, setBit_getLsbD _ _ _ _ hk, if_neg h]
  · rw [BitVec.getLsbD_of_ge _ _ (Nat.not_lt.mp hk), BitVec.getLsbD_of_ge _ _ (Nat.not_lt.mp hk)]

/-- R153, bit by bit. -/
theorem initialCfg_getLsbD (p : Config.Params) (k : Nat) (hk : k < 8) :
    (initialCfg p).getLsbD k =
      if k = p.CFG_MASK_RX_DR ∨ k = p.CFG_MASK_TX_DS ∨ k = p.CFG_MASK_MAX_RT then false
      else p.CONFIG_RESET.getLsbD k := by
  simp only [initialCfg, BitVec.getLsbD_and, BitVec.getLsbD_not, BitVec.getLsbD_or, one_shiftLeft_getLsbD _ k hk, hk,
    decide_true, Bool.true_and]
  by_cases h1 : k = p.CFG_MASK_RX_DR
  · simp [h1]
  · by_cases h2 : k = p.CFG_MASK_TX_DS
    · simp [h2]
    · by_cases h3 : k = p.CFG_MASK_MAX_RT
      · simp [h3]
      · simp [h1, h2, h3]

/-- R152, R153: the formula and the setters give the same initial cache. -/
theorem constructCfg_eq (p : Config.Params) : constructCfg p = initialCfg p := by
  apply BitVec.eq_of_getLsbD_eq
  intro k hk
  simp only [constructCfg, setMaskRxDr, setMaskTxDs, setMaskMaxRt, setBit_getLsbD _ _ _ _ hk, initialCfg_getLsbD p k hk]
  by_cases h1 : k = p.CFG_MASK_RX_DR
  · simp [h1]
  · by_cases h2 : k = p.CFG_MASK_TX_DS
    · simp [h2]
    · simp [h1, h2]

end Sys2Proof.Machine
end

