-- ==== Sys2Proof/Laws/Sequence.lean ====
section
/-! SUPPORT. A fact of the form "from `s` the operation ends with early end `e` (or none) in `t`" that
holds of the primitives and survives sequencing holds of every operation.  Stated once here, for each
operation, with the primitives it uses as hypotheses. -/

namespace Sys2Proof.Machine

/-- The early end of a (nested) operation, if it has one. -/
def Res.early {α : Type} : Res α → Option Early
  | .done _ _ => none
  | .stop e _ => some e

@[simp] theorem Res.early_done {α : Type} (a : α) (s : State) : (Res.done a s).early = none := rfl

@[simp] theorem Res.early_stop {α : Type} (e : Early) (s : State) : (Res.stop e s : Res α).early = some e := rfl

/-- A fact about where an operation ends holds of a result. -/
def Holds {α : Type} (Q : State → Option Early → State → Prop) (s : State) (r : Res α) : Prop := Q s r.early r.state

/-- A fact that survives sequencing, with the transactions of the commands in `K`. -/
structure Sequential (p : Config.Params) (Q : State → Option Early → State → Prop) (K : Command → Prop) : Prop where
  refl : ∀ s, Q s none s
  trans : ∀ {s t u e}, Q s none t → Q t e u → Q s e u
  transact : ∀ c s, K c → Holds Q s (transact p c s)

variable {p : Config.Params} {Q : State → Option Early → State → Prop} {K : Command → Prop} {α β : Type}

theorem Sequential.done (L : Sequential p Q K) (a : α) (s : State) : Holds Q s (.done a s) := L.refl s

theorem Sequential.andThen (L : Sequential p Q K) {s : State} {r : Res α} {f : α → State → Res β} (first : Holds Q s r)
    (second : ∀ a s1, r = .done a s1 → Holds Q s1 (f a s1)) : Holds Q s (r.andThen f) := by
  cases r with
  | done a s1 => exact L.trans first (second a s1 rfl)
  | stop e s1 => exact first

/-- A step that is an update of State only. -/
theorem Sequential.update (L : Sequential p Q K) {s t : State} {r : Res α} (first : Q s none t) (second : Holds Q t r) :
    Holds Q s r := L.trans first second

theorem opSendCommand_holds (L : Sequential p Q K) {c : Command} (hc : K c) (s : State) : Holds Q s (opSendCommand p c s) :=
  L.andThen (L.transact c s hc) fun _ s1 _ => L.done _ s1

theorem opWriteRegister_holds (L : Sequential p Q K) {a : RegAddr} {w : Nat} {v : List Byte} (hc : K (.writeRegister a w v))
    (s : State) : Holds Q s (opWriteRegister p a w v s) :=
  L.andThen (L.transact _ s hc) fun _ s1 _ => L.done _ s1

theorem opReadRegister_holds (L : Sequential p Q K) {a : RegAddr} {w : Nat} (hc : K (.readRegister a w)) (s : State) :
    Holds Q s (opReadRegister p a w s) :=
  L.andThen (L.transact _ s hc) fun _ s1 _ => L.done _ s1

theorem opIsConnected_holds (L : Sequential p Q K) (hc : K (.readRegister p.ADDR_SETUP_AW 1)) (s : State) :
    Holds Q s (opIsConnected p s) :=
  L.andThen (opReadRegister_holds L hc s) fun _ s1 _ => L.done _ s1

theorem updateConfigWith_holds (L : Sequential p Q K) {f : Byte → Byte × MutResult} (s : State)
    (hc : (f s.cfg).1 ≠ s.cfg → K (.writeRegister p.ADDR_CONFIG 1 [(f s.cfg).1]))
    (hcfg : Q s none ((s.setTemps [s.cfg] [(f s.cfg).1]).setCfg (f s.cfg).1)) : Holds Q s (updateConfigWith p f s) := by
  unfold updateConfigWith
  by_cases h : (f s.cfg).1 ≠ s.cfg
  · simp only [if_pos h]
    exact L.update hcfg (L.andThen (opWriteRegister_holds L (hc h) _) fun _ s1 _ => L.done _ s1)
  · simp only [if_neg h]
    exact L.update hcfg (L.done _ _)

/-- `update_register`: what the mutator answers matters to the commands and to the temporaries. -/
theorem opUpdateRegister_holds (L : Sequential p Q K) {a : RegAddr} {w : Nat} {f : Mutator} (s : State)
    (hfault : Q s (some (.fault .configViaUpdateRegister)) (s.setFault true)) (hr : K (.readRegister a w))
    (hw : ∀ (st : Byte) (old : List Byte) (s1 : State), opReadRegister p a w s = .done (st, old) s1 →
      K (.writeRegister a w (evalMutator f old).1))
    (ht : ∀ (st : Byte) (old : List Byte) (s1 : State), opReadRegister p a w s = .done (st, old) s1 →
      Q s1 none (s1.setTemps old (evalMutator f old).1)) :
    Holds Q s (opUpdateRegister p a w f s) := by
  unfold opUpdateRegister
  split
  · exact hfault
  · refine L.andThen (opReadRegister_holds L hr s) fun x s1 h1 => ?_
    obtain ⟨st, old⟩ := x
    refine L.update (ht st old s1 h1) ?_
    by_cases h : (evalMutator f old).1 ≠ old
    · simp only [if_pos h]
      exact L.andThen (opWriteRegister_holds L (hw st old s1 h1) _) fun _ s3 _ => L.done _ s3
    · simp only [if_neg h]
      exact L.done _ _

/-- What the transitions of the mode machine need beside transactions: CE writes and the cache's
`PRIM_RX`. -/
structure TxSteps (p : Config.Params) (Q : State → Option Early → State → Prop) (K : Command → Prop) : Prop extends Sequential p Q K where
  lower : ∀ s : State, Holds Q s (pin .ce false s)
  clearPrimRx : ∀ s : State, Q s none ((s.setTemps [s.cfg] [setPrimRx p s.cfg false]).setCfg (setPrimRx p s.cfg false))
  toTx : ∀ s : State, Q s none (s.setMode .tx)
  writeConfig : ∀ c, K (.writeRegister p.ADDR_CONFIG 1 [c])

/-- The polls' further needs. -/
structure PollSteps (p : Config.Params) (Q : State → Option Early → State → Prop) (K : Command → Prop) : Prop extends TxSteps p Q K where
  block : ∀ s : State, Q s (some .wouldBlock) s
  poll : K (.readRegister p.ADDR_FIFO_STATUS 1)
  flush : K .flushTx
  writeStatus : ∀ c, K (.writeRegister p.ADDR_STATUS 1 [c])

/-- The needs of the way into Rx. -/
structure RxSteps (p : Config.Params) (Q : State → Option Early → State → Prop) (K : Command → Prop) : Prop extends PollSteps p Q K where
  raiseCe : ∀ s : State, Holds Q s (pin .ce true s)
  setPrimRx : ∀ s : State, Q s none ((s.setTemps [s.cfg] [setPrimRx p s.cfg true]).setCfg (setPrimRx p s.cfg true))
  toRx : ∀ s : State, Q s none (s.setMode .rx)

theorem opEnterTx_holds (L : TxSteps p Q K) (s : State) : Holds Q s (opEnterTx p s) := by
  unfold opEnterTx
  split
  · exact L.done _ s
  · exact L.andThen (L.lower s) fun _ s1 _ =>
      L.andThen (updateConfigWith_holds L.toSequential s1 (fun _ => L.writeConfig _) (L.clearPrimRx s1)) fun _ s2 _ =>
        L.update (L.toTx s2) (L.done _ _)

theorem pollFifo_holds (L : Sequential p Q K) (h : K (.readRegister p.ADDR_FIFO_STATUS 1)) (s : State) :
    Holds Q s (pollFifo p s) :=
  L.andThen (opReadRegister_holds L h s) fun _ s1 _ => L.done _ s1

theorem discardStuck_holds (L : PollSteps p Q K) (s : State) : Holds Q s (discardStuck p s) :=
  L.andThen (L.transact _ s L.flush) fun _ s1 _ =>
    L.andThen (opWriteRegister_holds L.toSequential (L.writeStatus _) s1) fun _ s2 _ => L.block s2

theorem opWaitTxReady_holds (L : PollSteps p Q K) (s : State) : Holds Q s (opWaitTxReady p s) :=
  L.andThen (opEnterTx_holds L.toTxSteps s) fun _ s1 _ =>
    L.andThen (pollFifo_holds L.toSequential L.poll s1) fun x s2 _ => by
      simp only
      split
      · exact discardStuck_holds L s2
      · split
        · exact L.block s2
        · exact L.done _ s2

theorem opWaitTxEmpty_holds (L : PollSteps p Q K) (s : State) : Holds Q s (opWaitTxEmpty p s) :=
  L.andThen (opEnterTx_holds L.toTxSteps s) fun _ s1 _ =>
    L.andThen (pollFifo_holds L.toSequential L.poll s1) fun x s2 _ => by
      simp only
      split
      · exact discardStuck_holds L s2
      · split
        · exact L.block s2
        · exact L.lower s2

theorem opEnterRx_holds (L : RxSteps p Q K) (s : State) : Holds Q s (opEnterRx p s) := by
  unfold opEnterRx
  split
  · exact L.done _ s
  · exact L.andThen (opWaitTxEmpty_holds L.toPollSteps s) fun _ s1 _ => L.andThen (L.raiseCe s1) fun _ s2 _ =>
      L.andThen (updateConfigWith_holds L.toSequential s2 (fun _ => L.writeConfig _) (L.setPrimRx s2)) fun _ s3 _ =>
        L.update (L.toRx s3) (L.done _ _)

theorem opWaitRxReady_holds (L : RxSteps p Q K) (s : State) : Holds Q s (opWaitRxReady p s) :=
  L.andThen (opEnterRx_holds L s) fun _ s1 _ =>
    L.andThen (pollFifo_holds L.toSequential L.poll s1) fun x s2 _ => by
      simp only
      split
      · exact L.block s2
      · exact L.done _ s2

theorem opSend_holds (L : TxSteps p Q K) {packet : List Byte} (s : State)
    (hfault : Q s (some (.fault .payloadTooLong)) (s.setFault true)) (hraise : ∀ s : State, Holds Q s (pin .ce true s))
    (hw : packet.length ≤ Config.MAX_PAYLOAD → K (.writeTxPayload packet)) : Holds Q s (opSend p packet s) := by
  unfold opSend
  split
  · exact hfault
  · rename_i h
    exact L.andThen (opEnterTx_holds L s) fun _ s1 _ =>
      L.andThen (L.transact _ s1 (hw (Nat.not_lt.mp h))) fun _ s2 _ => hraise s2

theorem opRead_holds (L : RxSteps p Q K) (s : State)
    (hfault : ∀ s : State, Q s (some (.fault .payloadTooLong)) (s.setFault true)) (hw : K .readRxPayloadWidth)
    (hp : ∀ n, n ≤ Config.MAX_PAYLOAD → K (.readRxPayload n)) : Holds Q s (opRead p s) :=
  L.andThen (opEnterRx_holds L s) fun _ s1 _ =>
    L.andThen (L.transact _ s1 hw) fun x s2 _ => by
      simp only
      split
      · exact hfault s2
      · rename_i h
        exact L.andThen (L.transact _ s2 (hp _ (Nat.not_lt.mp h))) fun _ s3 _ => L.done _ s3

theorem opClearInterrupts_holds (L : Sequential p Q K) (h : K (.writeRegister p.ADDR_STATUS 1 [stClearAll p]))
    (s : State) : Holds Q s (opClearInterrupts p s) :=
  L.andThen (opWriteRegister_holds L h s) fun _ s1 _ => L.done _ s1

theorem runBatch_holds (L : Sequential p Q K) (batch : List BatchOp)
    (h : ∀ op ∈ batch, ∀ s, Holds Q s (runBatchOp p op s)) (s : State) : Holds Q s (runBatch p batch s) := by
  induction batch generalizing s with
  | nil => exact L.done _ s
  | cons op ops ih =>
    exact L.andThen (h op (by simp) s) fun _ s1 _ => ih (fun o ho => h o (by simp [ho])) s1

end Sys2Proof.Machine
end

