-- ==== Sys2Proof/Laws/Transact.lean ====
section
/-! SUPPORT. Everything a transaction can do, in every environment. -/

namespace Sys2Proof.Machine

/-- The way from `s` to `t` performed these events and left everything but CSN, the buffer, the fault
bit and the environment's script. -/
structure Carries (s t : State) (events : List Event) : Prop where
  params : t.params = s.params
  mode : t.mode = s.mode
  cfg : t.cfg = s.cfg
  ce : t.ce = s.ce
  live : t.live = s.live
  old : t.old = s.old
  new : t.new = s.new
  outcomes : t.outcomes = s.outcomes
  requests : t.requests = s.requests
  trace : t.trace = s.trace ++ events

/-- The shape of the buffer after a transaction with this frame. -/
def BufferHolds (t : State) (frame : List Byte) : Prop :=
  frame.length ≤ Config.BUF_LEN → t.buf.length = Config.BUF_LEN ∧ t.len = frame.length

/-- The end of a transaction once the exchange has answered. -/
theorem closeTransaction_cases {p : Config.Params} {c : Command} {s : State} {y : List Byte} (r : Answer)
    (hr : ∀ rx, r = .ok rx → rx.length = (encodeFrame p c).length) (hb : s.buf = encodeFrame p c ++ y)
    (hy : y.length = Config.BUF_LEN - (encodeFrame p c).length) (hl : s.len = (encodeFrame p c).length) :
    ∃ t, Carries s t [.pinWrite .csn true] ∧ t.csn = true ∧ BufferHolds t (encodeFrame p c) ∧
      ((t.fault = true ∧ closeTransaction c r s = .stop (.fault (.lineWriteFailed .csn)) t) ∨
       (t.fault = s.fault ∧
        ((∃ e, r = .err e ∧ closeTransaction c r s = .stop (.transportFailure e) t) ∨
         ∃ rx, r = .ok rx ∧ closeTransaction c r s = .done (statusOf rx, decodeResponse c rx) t))) := by
  cases r with
  | err e =>
    obtain ⟨s1, hs1, h | h⟩ := pin_cases .csn true s.loseBuf
    · refine ⟨_, ?_, ?_, ?_, .inr ⟨?_, .inl ⟨e, rfl, by rw [closeTransaction, h]; rfl⟩⟩⟩
      all_goals obtain rfl | ⟨rest, rfl⟩ := hs1
      all_goals first
        | exact ⟨by simp [State.loseBuf], by simp [State.loseBuf], by simp [State.loseBuf], by simp [State.loseBuf], by simp [State.loseBuf],
            by simp [State.loseBuf], by simp [State.loseBuf], by simp [State.loseBuf], by simp [State.loseBuf],
            by simp [State.loseBuf]⟩
        | simp [State.loseBuf, BufferHolds, hl]
    · refine ⟨_, ?_, ?_, ?_, .inl ⟨?_, by rw [closeTransaction, h]; rfl⟩⟩
      all_goals obtain rfl | ⟨rest, rfl⟩ := hs1
      all_goals first
        | exact ⟨by simp [State.loseBuf], by simp [State.loseBuf], by simp [State.loseBuf], by simp [State.loseBuf], by simp [State.loseBuf],
            by simp [State.loseBuf], by simp [State.loseBuf], by simp [State.loseBuf], by simp [State.loseBuf],
            by simp [State.loseBuf]⟩
        | simp [State.loseBuf, BufferHolds, hl]
  | ok rx =>
    have hrx := hr rx rfl
    have hpos := encodeFrame_pos p c
    obtain ⟨s1, hs1, h | h⟩ := pin_cases .csn true s
    · have hbuf : ((s1.setLine .csn true).record (.pinWrite .csn true)).buf = encodeFrame p c ++ y := by
        obtain rfl | ⟨rest, rfl⟩ := hs1 <;> simp [hb]
      have hlen : ((s1.setLine .csn true).record (.pinWrite .csn true)).len = (encodeFrame p c).length := by
        obtain rfl | ⟨rest, rfl⟩ := hs1 <;> simp [hl]
      obtain ⟨h1, h2⟩ := fillRegion_of hbuf hlen hrx
      have h3 : statusOf (rx ++ y) = statusOf rx := by
        cases rx with
        | nil => simp at hrx; omega
        | cons b r => rfl
      refine ⟨(((s1.setLine .csn true).record (.pinWrite .csn true)).fillRegion rx), ?_, ?_, ?_,
        .inr ⟨?_, .inr ⟨rx, rfl, by rw [closeTransaction, h, Res.andThen_done]; simp only [h1, h2, h3]⟩⟩⟩
      · obtain rfl | ⟨rest, rfl⟩ := hs1 <;>
        exact ⟨by simp [State.fillRegion], by simp [State.fillRegion], by simp [State.fillRegion], by simp [State.fillRegion],
          by simp [State.fillRegion], by simp [State.fillRegion], by simp [State.fillRegion],
          by simp [State.fillRegion], by simp [State.fillRegion], by simp [State.fillRegion]⟩
      · obtain rfl | ⟨rest, rfl⟩ := hs1 <;> simp [State.fillRegion]
      · intro hle
        refine ⟨?_, by simpa [State.fillRegion] using hlen⟩
        rw [h1]; simp; omega
      · obtain rfl | ⟨rest, rfl⟩ := hs1 <;> simp [State.fillRegion]
    · refine ⟨_, ?_, ?_, ?_, .inl ⟨?_, by rw [closeTransaction, h]; rfl⟩⟩
      · obtain rfl | ⟨rest, rfl⟩ := hs1 <;>
        exact ⟨by simp, by simp, by simp, by simp, by simp, by simp, by simp, by simp, by simp, by simp⟩
      · obtain rfl | ⟨rest, rfl⟩ := hs1 <;> simp
      · intro hle
        obtain rfl | ⟨rest, rfl⟩ := hs1 <;> simp [hb, hl, hy] <;> omega
      · obtain rfl | ⟨rest, rfl⟩ := hs1 <;> simp

/-- R96, R100, R135: everything a transaction can do.  (a) The command has no frame, and nothing happens
but the fault.  (b) The first line write fails, and there is no exchange.  (c) The exchange is made and
chip-select released; the last line write fails, or the exchange's error is returned, or its answer,
of the frame's length, is decoded. -/
theorem transact_cases (p : Config.Params) (c : Command) (s : State) :
    (Config.BUF_LEN < frameLen c ∧ transact p c s = .stop (.fault .payloadTooLong) (s.setFault true)) ∨
    (frameLen c ≤ Config.BUF_LEN ∧ ∃ t, BufferHolds t (encodeFrame p c) ∧
      ((Carries s t [.pinWrite .csn false] ∧ t.csn = false ∧ t.fault = true ∧
          transact p c s = .stop (.fault (.lineWriteFailed .csn)) t) ∨
       ∃ r, (∀ rx, r = .ok rx → rx.length = (encodeFrame p c).length) ∧
        Carries s t (transactionEvents (encodeFrame p c) r) ∧ t.csn = true ∧
        ((t.fault = true ∧ transact p c s = .stop (.fault (.lineWriteFailed .csn)) t) ∨
         (t.fault = s.fault ∧
          ((∃ e, r = .err e ∧ transact p c s = .stop (.transportFailure e) t) ∨
           ∃ rx, r = .ok rx ∧ transact p c s = .done (statusOf rx, decodeResponse c rx) t))))) := by
  by_cases hlen : Config.BUF_LEN < frameLen c
  · exact .inl ⟨hlen, transact_too_long hlen⟩
  · have hlen := Nat.not_lt.mp hlen
    refine .inr ⟨hlen, ?_⟩
    rw [transact_eq hlen]
    obtain ⟨s1, hs1, h | h⟩ := pin_cases .csn false (s.allocBuf (encodeFrame p c))
    · rw [h, Res.andThen_done]
      obtain ⟨s2, hs2, hx⟩ := exchange_cases (encodeFrame p c) ((s1.setLine .csn false).record (.pinWrite .csn false))
      have key : ∀ r : Answer, (∀ rx, r = .ok rx → rx.length = (encodeFrame p c).length) →
          exchange (encodeFrame p c) ((s1.setLine .csn false).record (.pinWrite .csn false)) =
            (r, s2.record (.exchange (encodeFrame p c) r)) →
          ∃ t, BufferHolds t (encodeFrame p c) ∧ Carries s t (transactionEvents (encodeFrame p c) r) ∧ t.csn = true ∧
            ((t.fault = true ∧ closeTransaction c r (s2.record (.exchange (encodeFrame p c) r)) =
                .stop (.fault (.lineWriteFailed .csn)) t) ∨
             (t.fault = s.fault ∧
              ((∃ e, r = .err e ∧ closeTransaction c r (s2.record (.exchange (encodeFrame p c) r)) =
                  .stop (.transportFailure e) t) ∨
               ∃ rx, r = .ok rx ∧ closeTransaction c r (s2.record (.exchange (encodeFrame p c) r)) =
                  .done (statusOf rx, decodeResponse c rx) t))) := by
        intro r hr hxr
        have hb : (s2.record (.exchange (encodeFrame p c) r)).buf =
            encodeFrame p c ++ freeTail s.draws (encodeFrame p c).length := by
          obtain rfl | ⟨r2, rfl⟩ := hs2 <;> obtain rfl | ⟨r1, rfl⟩ := hs1 <;> simp [State.allocBuf]
        have hl : (s2.record (.exchange (encodeFrame p c) r)).len = (encodeFrame p c).length := by
          obtain rfl | ⟨r2, rfl⟩ := hs2 <;> obtain rfl | ⟨r1, rfl⟩ := hs1 <;> simp [State.allocBuf]
        have hf : (s2.record (.exchange (encodeFrame p c) r)).fault = s.fault := by
          obtain rfl | ⟨r2, rfl⟩ := hs2 <;> obtain rfl | ⟨r1, rfl⟩ := hs1 <;> simp [State.allocBuf]
        have hc : Carries s (s2.record (.exchange (encodeFrame p c) r)) [.pinWrite .csn false, .exchange (encodeFrame p c) r] := by
          obtain rfl | ⟨r2, rfl⟩ := hs2 <;> obtain rfl | ⟨r1, rfl⟩ := hs1 <;>
          exact ⟨by simp [State.allocBuf], by simp [State.allocBuf], by simp [State.allocBuf], by simp [State.allocBuf], by simp [State.allocBuf],
            by simp [State.allocBuf], by simp [State.allocBuf], by simp [State.allocBuf], by simp [State.allocBuf],
            by simp [State.allocBuf]⟩
        obtain ⟨t, ht, hcsn, hbuf, hend⟩ := closeTransaction_cases r hr hb (by simp) hl
        refine ⟨t, hbuf, ⟨ht.params.trans hc.params, ht.mode.trans hc.mode, ht.cfg.trans hc.cfg, ht.ce.trans hc.ce, ht.live.trans hc.live,
          ht.old.trans hc.old, ht.new.trans hc.new, ht.outcomes.trans hc.outcomes, ht.requests.trans hc.requests,
          by rw [ht.trace, hc.trace]; simp [transactionEvents]⟩, hcsn, ?_⟩
        rw [hf] at hend
        exact hend
      obtain ⟨e, hx⟩ | ⟨rx, hrx, hx⟩ := hx
      · obtain ⟨t, h1, h2, h3, h4⟩ := key (.err e) (by simp) hx
        refine ⟨t, h1, .inr ⟨.err e, by simp, h2, h3, ?_⟩⟩
        rw [hx]; exact h4
      · obtain ⟨t, h1, h2, h3, h4⟩ := key (.ok rx) (by simpa using hrx) hx
        refine ⟨t, h1, .inr ⟨.ok rx, by simpa using hrx, h2, h3, ?_⟩⟩
        rw [hx]; exact h4
    · rw [h, Res.andThen_stop]
      refine ⟨_, ?_, .inl ⟨?_, ?_, ?_, rfl⟩⟩
      · intro hle
        obtain rfl | ⟨rest, rfl⟩ := hs1 <;> simp [State.allocBuf] <;> omega
      · obtain rfl | ⟨rest, rfl⟩ := hs1 <;>
        exact ⟨by simp [State.allocBuf], by simp [State.allocBuf], by simp [State.allocBuf], by simp [State.allocBuf], by simp [State.allocBuf],
          by simp [State.allocBuf], by simp [State.allocBuf], by simp [State.allocBuf], by simp [State.allocBuf],
          by simp [State.allocBuf]⟩
      · obtain rfl | ⟨rest, rfl⟩ := hs1 <;> simp
      · simp

/-- R102: a register read that succeeds answers as many bytes as its width. -/
theorem opReadRegister_done_length {p : Config.Params} {a : RegAddr} {w : Nat} (hw : widthOk w = true) {s t : State} {st : Byte}
    {old : List Byte} (h : opReadRegister p a w s = .done (st, old) t) : old.length = w := by
  rw [opReadRegister, Res.andThen_eq_done] at h
  obtain ⟨⟨st', resp⟩, s1, h1, h2⟩ := h
  obtain ⟨hlen, h⟩ | ⟨hlen, t, hb, ⟨hcar, hcsn, hf, h⟩ | ⟨r, hrx, hcar, hcsn, ⟨hf, h⟩ | ⟨hf, ⟨e, rfl, h⟩ | ⟨rx, rfl, h⟩⟩⟩⟩ :=
      transact_cases p (.readRegister a w) s <;> rw [h] at h1 <;> cases h1
  cases h2
  have := hrx rx rfl
  rw [encodeFrame_length (c := .readRegister a w) hw] at this
  simp [decodeResponse, Response.bytes, this, frameLen]

end Sys2Proof.Machine
end

