-- ==== Sys2Proof/Laws/Params.lean ====
section
/-! SUPPORT. Nothing writes the parameters of a block (R8). -/

namespace Sys2Proof.Machine

/-- The fact, in the form that survives sequencing. -/
def KeepsParams (s : State) (_ : Option Early) (t : State) : Prop := t.params = s.params

theorem pin_keepsParams (l : Line) (b : Bool) (s : State) : Holds KeepsParams s (pin l b s) := by
  obtain ⟨s1, rfl | ⟨rest, rfl⟩, h | h⟩ := pin_cases l b s <;> rw [h] <;> simp [Holds, KeepsParams]

theorem keepsParams_sequential {p : Config.Params} : Sequential p KeepsParams fun _ => True where
  refl _ := rfl
  trans h1 h2 := Eq.trans h2 h1
  transact c s _ := by
    obtain ⟨-, h⟩ | ⟨-, t, -, ⟨hc, -, -, h⟩ | ⟨r, -, hc, -, ⟨-, h⟩ | ⟨-, ⟨e, -, h⟩ | ⟨rx, -, h⟩⟩⟩⟩ := transact_cases p c s <;>
      rw [h] <;> first | exact hc.params | rfl

theorem keepsParams_steps {p : Config.Params} : RxSteps p KeepsParams fun _ => True where
  toSequential := keepsParams_sequential
  lower := pin_keepsParams .ce false
  clearPrimRx _ := rfl
  toTx _ := rfl
  writeConfig _ := trivial
  block _ := rfl
  poll := trivial
  flush := trivial
  writeStatus _ := trivial
  raiseCe := pin_keepsParams .ce true
  setPrimRx _ := rfl
  toRx _ := rfl

/-- A result that is only renamed. -/
theorem Sequential.map {p : Config.Params} {Q : State → Option Early → State → Prop} {K : Command → Prop}
    (L : Sequential p Q K) {α β : Type} {s : State} {r : Res α} (f : α → β) (h : Holds Q s r) :
    Holds Q s (r.andThen fun a s1 => .done (f a) s1) :=
  L.andThen h fun a s1 _ => L.done (f a) s1

theorem runBatchOp_keepsParams (p : Config.Params) (op : BatchOp) (s : State) : Holds KeepsParams s (runBatchOp p op s) := by
  have L := keepsParams_sequential (p := p)
  cases op with
  | writeRegister a w v => exact L.map _ (opWriteRegister_holds L trivial s)
  | updateRegister a w f =>
    exact L.map _ (opUpdateRegister_holds L s rfl trivial (fun _ _ _ _ => trivial) fun _ _ _ _ => rfl)
  | updateConfig f => exact L.map _ (updateConfigWith_holds L s (fun _ => trivial) rfl)
  | sendCommand c => exact L.map _ (L.transact c s trivial)

theorem opConstruct_params (p : Config.Params) (batch : List BatchOp) (s : State) : (opConstruct p batch s).state.params = s.params := by
  have L := keepsParams_sequential (p := p)
  have h : Holds KeepsParams s (constructBody p batch s) := by
    refine L.update (t := (s.setLive false).setFault false) rfl (L.andThen (pin_keepsParams _ _ _) fun _ s1 _ =>
      L.andThen (pin_keepsParams _ _ _) fun _ s2 _ => L.andThen (s := s2) ?_ fun ok s3 _ => ?_)
    · exact L.update (t := (s2.setCfg (constructCfg p)).setMode .standby) rfl (opIsConnected_holds L trivial _)
    · split
      · exact runBatch_holds L batch (fun op _ => runBatchOp_keepsParams p op) s3
      · rfl
  unfold opConstruct
  split <;> rename_i heq <;> rw [heq] at h <;> exact h

/-- R8: no instruction writes the parameters. -/
theorem exec_params {i : Instr} {s t : State} (h : exec i s = .next t) : t.params = s.params := by
  have L := keepsParams_sequential (p := s.params)
  have X := keepsParams_steps (p := s.params)
  have key : (hostOp s.params i s).state.params = s.params := by
    cases i with
    | construct batch => exact opConstruct_params s.params batch s
    | wireReadRegister a w => exact opSendCommand_holds L trivial s
    | wireWriteRegister a w v => exact opSendCommand_holds L trivial s
    | wireReadRxPayload n => exact opSendCommand_holds L trivial s
    | wireReadRxPayloadWidth => exact opSendCommand_holds L trivial s
    | wireWriteTxPayload d => exact opSendCommand_holds L trivial s
    | wireFlushTx => exact opSendCommand_holds L trivial s
    | wireFlushRx => exact opSendCommand_holds L trivial s
    | wireActivate => exact opSendCommand_holds L trivial s
    | ceEnable => exact L.map _ (pin_keepsParams _ _ s)
    | ceDisable => exact L.map _ (pin_keepsParams _ _ s)
    | sendCommand c => exact opSendCommand_holds L trivial s
    | writeRegister a w v => exact L.map _ (opWriteRegister_holds L trivial s)
    | readRegister a w => exact L.map _ (opReadRegister_holds L trivial s)
    | updateRegister a w f =>
      exact L.map _ (opUpdateRegister_holds L s rfl trivial (fun _ _ _ _ => trivial) fun _ _ _ _ => rfl)
    | updateConfig f => exact L.map _ (updateConfigWith_holds L s (fun _ => trivial) rfl)
    | isConnected => exact L.map _ (opIsConnected_holds L trivial s)
    | enterRx => exact L.map _ (opEnterRx_holds X s)
    | enterTx => exact L.map _ (opEnterTx_holds X.toTxSteps s)
    | send packet =>
      exact L.map _ (opSend_holds X.toTxSteps s rfl (pin_keepsParams .ce true) fun _ => trivial)
    | waitTxReady => exact L.map _ (opWaitTxReady_holds X.toPollSteps s)
    | waitTxEmpty => exact L.map _ (opWaitTxEmpty_holds X.toPollSteps s)
    | waitRxReady => exact L.map _ (opWaitRxReady_holds X s)
    | read => exact L.map _ (opRead_holds X s (fun _ => rfl) trivial fun _ _ => trivial)
    | clearInterrupts => exact L.map _ (opClearInterrupts_holds L trivial s)
  obtain ⟨-, he⟩ | ⟨-, -, he⟩ := exec_cases i s <;> rw [he] at h <;> cases h
  · exact key
  · rfl

end Sys2Proof.Machine
end

