-- ==== Sys2Proof/Laws/PerInstr.lean ====
section
/-! SUPPORT. One lemma per instruction: the first byte of its encoding is its row of
spec/opcode_table.json (match and mask). -/

namespace Sys2Proof.Laws.TableRow

/-- The row of spec/opcode_table.json: the space, the match and the mask over the first byte.  The
six opcodes that R8 leaves open are the parameters', whose defaults are the bytes the table writes. -/
def row (p : Config.Params) : Instr → Space × Byte × Byte
  | .wireReadRegister _ _ => (.wire, 0x00#8, 0xE0#8)
  | .wireWriteRegister _ _ _ => (.wire, 0x20#8, 0xE0#8)
  | .wireReadRxPayload _ => (.wire, p.OP_R_RX_PAYLOAD, 0xFF#8)
  | .wireReadRxPayloadWidth => (.wire, p.OP_R_RX_PL_WID, 0xFF#8)
  | .wireWriteTxPayload _ => (.wire, p.OP_W_TX_PAYLOAD, 0xFF#8)
  | .wireFlushTx => (.wire, p.OP_FLUSH_TX, 0xFF#8)
  | .wireFlushRx => (.wire, p.OP_FLUSH_RX, 0xFF#8)
  | .wireActivate => (.wire, p.OP_ACTIVATE, 0xFF#8)
  | .construct _ => (.op, 0x00#8, 0x1F#8)
  | .ceEnable => (.op, 0x01#8, 0x1F#8)
  | .ceDisable => (.op, 0x02#8, 0x1F#8)
  | .sendCommand _ => (.op, 0x03#8, 0x1F#8)
  | .writeRegister _ _ _ => (.op, 0x04#8, 0x1F#8)
  | .readRegister _ _ => (.op, 0x05#8, 0x1F#8)
  | .updateRegister _ _ _ => (.op, 0x06#8, 0x1F#8)
  | .updateConfig _ => (.op, 0x07#8, 0x1F#8)
  | .isConnected => (.op, 0x08#8, 0x1F#8)
  | .enterRx => (.op, 0x09#8, 0x1F#8)
  | .enterTx => (.op, 0x0A#8, 0x1F#8)
  | .send _ => (.op, 0x0B#8, 0x1F#8)
  | .waitTxReady => (.op, 0x0C#8, 0x1F#8)
  | .waitTxEmpty => (.op, 0x0D#8, 0x1F#8)
  | .waitRxReady => (.op, 0x0E#8, 0x1F#8)
  | .read => (.op, 0x0F#8, 0x1F#8)
  | .clearInterrupts => (.op, 0x10#8, 0x1F#8)

/-- With any parameters the instruction is encoded in its row's space, and its first byte matches its row. -/
def Statement (i : Instr) : Prop :=
  ∀ p : Config.Params,
    (encode p i).space = (row p i).1 ∧ ∃ b rest, (encode p i).bytes = b :: rest ∧ b &&& (row p i).2.2 = (row p i).2.1

/-- The mask of a row that matches its whole first byte. -/
theorem whole_byte (b : Byte) : b &&& 0xFF#8 = b := BitVec.and_allOnes

/-- The default parameters' row is the table's. -/
theorem row_defaults :
    row Config.defaults .wireFlushTx = (.wire, 0xE1#8, 0xFF#8) ∧ row Config.defaults .wireFlushRx = (.wire, 0xE2#8, 0xFF#8) ∧
    row Config.defaults .wireActivate = (.wire, 0x50#8, 0xFF#8) ∧
    row Config.defaults .wireReadRxPayloadWidth = (.wire, 0x60#8, 0xFF#8) ∧
    (∀ n, row Config.defaults (.wireReadRxPayload n) = (.wire, 0x61#8, 0xFF#8)) ∧
    ∀ d, row Config.defaults (.wireWriteTxPayload d) = (.wire, 0xA0#8, 0xFF#8) :=
  ⟨rfl, rfl, rfl, rfl, fun _ => rfl, fun _ => rfl⟩

theorem wireReadRegister (a : RegAddr) (w : Nat) : Statement (.wireReadRegister a w) :=
  fun _ => ⟨rfl, _, _, rfl, by
    have h : ∀ a : RegAddr, opcodeByte Config.DIR_READ a &&& 0xE0#8 = 0x00#8 := by decide
    exact h a⟩

theorem wireWriteRegister (a : RegAddr) (w : Nat) (v : List Byte) : Statement (.wireWriteRegister a w v) :=
  fun _ => ⟨rfl, _, _, rfl, by
    have h : ∀ a : RegAddr, opcodeByte Config.DIR_WRITE a &&& 0xE0#8 = 0x20#8 := by decide
    exact h a⟩

theorem wireReadRxPayload (n : Nat) : Statement (.wireReadRxPayload n) :=
  fun _ => ⟨rfl, _, _, rfl, whole_byte _⟩

theorem wireReadRxPayloadWidth : Statement .wireReadRxPayloadWidth := fun _ => ⟨rfl, _, _, rfl, whole_byte _⟩

theorem wireWriteTxPayload (d : List Byte) : Statement (.wireWriteTxPayload d) :=
  fun _ => ⟨rfl, _, _, rfl, whole_byte _⟩

theorem wireFlushTx : Statement .wireFlushTx := fun _ => ⟨rfl, _, _, rfl, whole_byte _⟩

theorem wireFlushRx : Statement .wireFlushRx := fun _ => ⟨rfl, _, _, rfl, whole_byte _⟩

theorem wireActivate : Statement .wireActivate := fun _ => ⟨rfl, _, _, rfl, whole_byte _⟩

theorem construct (batch : List BatchOp) : Statement (.construct batch) :=
  fun _ => ⟨rfl, _, _, rfl, show (0#5).setWidth 8 &&& 0x1F#8 = 0x00#8 by decide⟩

theorem ceEnable : Statement .ceEnable :=
  fun _ => ⟨rfl, _, _, rfl, show (1#5).setWidth 8 &&& 0x1F#8 = 0x01#8 by decide⟩

theorem ceDisable : Statement .ceDisable :=
  fun _ => ⟨rfl, _, _, rfl, show (2#5).setWidth 8 &&& 0x1F#8 = 0x02#8 by decide⟩

theorem sendCommand (c : Command) : Statement (.sendCommand c) :=
  fun _ => ⟨rfl, _, _, rfl, show (3#5).setWidth 8 &&& 0x1F#8 = 0x03#8 by decide⟩

theorem writeRegister (a : RegAddr) (w : Nat) (v : List Byte) : Statement (.writeRegister a w v) :=
  fun _ => ⟨rfl, _, _, rfl, show (4#5).setWidth 8 &&& 0x1F#8 = 0x04#8 by decide⟩

theorem readRegister (a : RegAddr) (w : Nat) : Statement (.readRegister a w) :=
  fun _ => ⟨rfl, _, _, rfl, show (5#5).setWidth 8 &&& 0x1F#8 = 0x05#8 by decide⟩

theorem updateRegister (a : RegAddr) (w : Nat) (f : Mutator) : Statement (.updateRegister a w f) :=
  fun _ => ⟨rfl, _, _, rfl, show (6#5).setWidth 8 &&& 0x1F#8 = 0x06#8 by decide⟩

theorem updateConfig (f : Mutator) : Statement (.updateConfig f) :=
  fun _ => ⟨rfl, _, _, rfl, show (7#5).setWidth 8 &&& 0x1F#8 = 0x07#8 by decide⟩

theorem isConnected : Statement .isConnected :=
  fun _ => ⟨rfl, _, _, rfl, show (8#5).setWidth 8 &&& 0x1F#8 = 0x08#8 by decide⟩

theorem enterRx : Statement .enterRx :=
  fun _ => ⟨rfl, _, _, rfl, show (9#5).setWidth 8 &&& 0x1F#8 = 0x09#8 by decide⟩

theorem enterTx : Statement .enterTx :=
  fun _ => ⟨rfl, _, _, rfl, show (10#5).setWidth 8 &&& 0x1F#8 = 0x0A#8 by decide⟩

theorem send (d : List Byte) : Statement (.send d) :=
  fun _ => ⟨rfl, _, _, rfl, show (11#5).setWidth 8 &&& 0x1F#8 = 0x0B#8 by decide⟩

theorem waitTxReady : Statement .waitTxReady :=
  fun _ => ⟨rfl, _, _, rfl, show (12#5).setWidth 8 &&& 0x1F#8 = 0x0C#8 by decide⟩

theorem waitTxEmpty : Statement .waitTxEmpty :=
  fun _ => ⟨rfl, _, _, rfl, show (13#5).setWidth 8 &&& 0x1F#8 = 0x0D#8 by decide⟩

theorem waitRxReady : Statement .waitRxReady :=
  fun _ => ⟨rfl, _, _, rfl, show (14#5).setWidth 8 &&& 0x1F#8 = 0x0E#8 by decide⟩

theorem read : Statement .read :=
  fun _ => ⟨rfl, _, _, rfl, show (15#5).setWidth 8 &&& 0x1F#8 = 0x0F#8 by decide⟩

theorem clearInterrupts : Statement .clearInterrupts :=
  fun _ => ⟨rfl, _, _, rfl, show (16#5).setWidth 8 &&& 0x1F#8 = 0x10#8 by decide⟩

end Sys2Proof.Laws.TableRow
end

