-- ==== Sys2Proof/Laws/Runs.lean ====
section
/-! SUPPORT. Runs of the nested operations in an environment whose answers are given: what each leaves,
and that what follows finds the answers meant for it. -/

namespace Sys2Proof.Machine

/-- The way from `s` to `t`: mode, cache and CE as given, these events, so many line answers and exchange
answers taken; nothing else of the block's control state touched. -/
structure Ran (s t : State) (mode : Mode) (cfg : Byte) (ce : Bool) (events : List Event) (lines exchanges : Nat) :
    Prop where
  params : t.params = s.params
  mode : t.mode = mode
  cfg : t.cfg = cfg
  ce : t.ce = ce
  live : t.live = s.live
  fault : t.fault = s.fault
  trace : t.trace = s.trace ++ events
  outcomes : t.outcomes = s.outcomes
  lineAnswers : t.lineAnswers = s.lineAnswers.drop lines
  exchAnswers : t.exchAnswers = s.exchAnswers.drop exchanges
  requests : t.requests = s.requests

theorem Ran.refl (s : State) : Ran s s s.mode s.cfg s.ce [] 0 0 :=
  ⟨rfl, rfl, rfl, rfl, rfl, rfl, by simp, rfl, by simp, by simp, rfl⟩

theorem Ran.trans {s t u : State} {m1 m2 : Mode} {c1 c2 : Byte} {b1 b2 : Bool} {es1 es2 : List Event} {l1 l2 x1 x2 : Nat}
    (h1 : Ran s t m1 c1 b1 es1 l1 x1) (h2 : Ran t u m2 c2 b2 es2 l2 x2) :
    Ran s u m2 c2 b2 (es1 ++ es2) (l1 + l2) (x1 + x2) where
  params := h2.params.trans h1.params
  mode := h2.mode
  cfg := h2.cfg
  ce := h2.ce
  live := h2.live.trans h1.live
  fault := h2.fault.trans h1.fault
  trace := by rw [h2.trace, h1.trace, List.append_assoc]
  outcomes := h2.outcomes.trans h1.outcomes
  lineAnswers := by rw [h2.lineAnswers, h1.lineAnswers, List.drop_drop]
  exchAnswers := by rw [h2.exchAnswers, h1.exchAnswers, List.drop_drop]
  requests := h2.requests.trans h1.requests

/-- A finished run of a ready block is what `Leaves` says. -/
theorem Ran.leaves {s t : State} {m : Mode} {c : Byte} {b : Bool} {es : List Event} {l x : Nat} (o : OpOutcome)
    (h : Ran s t m c b es l x) (hr : Ready s) : Leaves s (t.answer o) m c b es o l x where
  params := h.params
  live := h.live.trans hr.1
  fault := h.fault.trans hr.2
  mode := h.mode
  cfg := h.cfg
  ce := h.ce
  trace := h.trace
  outcomes := by simp [h.outcomes]
  lineAnswers := h.lineAnswers
  exchAnswers := h.exchAnswers
  requests := h.requests

/-! ## Answers -/

/-- Fewer line answers and a front part of the exchange answers. -/
theorem Answers.front {s : State} {l l' : Nat} {xs ys : List Answer} (h : Answers s l (xs ++ ys)) (hl : l' ≤ l) :
    Answers s l' xs := by
  refine ⟨?_, (List.prefix_append xs ys).trans h.2⟩
  have := congrArg (List.take l') h.1
  simpa [List.take_take, Nat.min_eq_left hl] using this

/-- What is left after a run has taken its part. -/
theorem Answers.rest {s t : State} {l l1 l2 : Nat} {xs ys : List Answer} {m : Mode} {c : Byte} {b : Bool} {es : List Event}
    (h : Answers s l (xs ++ ys)) (hl : l = l1 + l2) (hr : Ran s t m c b es l1 xs.length) : Answers t l2 ys := by
  subst hl
  obtain ⟨h1, rest, h2⟩ := h
  refine ⟨?_, rest, ?_⟩
  · rw [hr.lineAnswers]
    have := congrArg (List.drop l1) h1
    simpa [List.drop_take] using this
  · rw [hr.exchAnswers, ← h2]; simp

/-! ## The primitives -/

variable {p : Config.Params}

/-- R11: a line write to CE that succeeds. -/
theorem pin_ce_ran {s : State} (b : Bool) {xs : List Answer} (h : Answers s 1 xs) :
    ∃ t, pin .ce b s = .done () t ∧ Ran s t s.mode s.cfg b [.pinWrite .ce b] 1 0 := by
  obtain ⟨h1, -⟩ := h
  match hs : s.lineAnswers, h1 with
  | a :: rest, h1 =>
    obtain rfl : a = true := by simpa using h1
    refine ⟨_, pin_ok _ _ hs, ?_⟩
    exact ⟨by simp, by simp, by simp, by simp, by simp, by simp, by simp, by simp, by simp [hs], by simp, by simp⟩

/-- R100: a transaction that succeeds. -/
theorem transact_ran {c : Command} {s : State} {rx : List Byte} (hwf : c.wf = true) (hlen : frameLen c ≤ Config.BUF_LEN)
    (ha : Answers s 2 [.ok rx]) (hrx : rx.length = frameLen c) :
    ∃ t, transact p c s = .done (statusOf rx, decodeResponse c rx) t ∧
      Ran s t s.mode s.cfg s.ce (transactionEvents (encodeFrame p c) (.ok rx)) 2 1 :=
  ⟨_, transact_ok hwf hlen ha hrx, ⟨rfl, rfl, rfl, rfl, rfl, rfl, rfl, rfl, rfl, rfl, rfl⟩⟩

/-- R100: a transaction whose exchange fails. -/
theorem transact_err_ran {c : Command} {s : State} {e : TransportError} (hlen : frameLen c ≤ Config.BUF_LEN)
    (ha : Answers s 2 [.err e]) :
    ∃ t, transact p c s = .stop (.transportFailure e) t ∧
      Ran s t s.mode s.cfg s.ce (transactionEvents (encodeFrame p c) (.err e)) 2 1 :=
  ⟨_, transact_err hlen ha, ⟨rfl, rfl, rfl, rfl, rfl, rfl, rfl, rfl, rfl, rfl, rfl⟩⟩

/-! ## The Transport -/

theorem opWriteRegister_ran {a : RegAddr} {w : Nat} {v rx : List Byte} {s : State}
    (hwf : Command.wf (.writeRegister a w v) = true) (ha : Answers s 2 [.ok rx]) (hrx : rx.length = 1 + w) :
    ∃ t, opWriteRegister p a w v s = .done (statusOf rx) t ∧
      Ran s t s.mode s.cfg s.ce (transactionEvents (encodeFrame p (.writeRegister a w v)) (.ok rx)) 2 1 := by
  have hlen := writeRegister_short hwf
  obtain ⟨t, h, hr⟩ := transact_ran hwf hlen ha hrx
  exact ⟨t, by rw [opWriteRegister, h]; rfl, hr⟩

theorem opWriteRegister_err_ran {a : RegAddr} {w : Nat} {v : List Byte} {s : State} {e : TransportError}
    (hwf : Command.wf (.writeRegister a w v) = true) (ha : Answers s 2 [.err e]) :
    ∃ t, opWriteRegister p a w v s = .stop (.transportFailure e) t ∧
      Ran s t s.mode s.cfg s.ce (transactionEvents (encodeFrame p (.writeRegister a w v)) (.err e)) 2 1 := by
  have hlen := writeRegister_short hwf
  obtain ⟨t, h, hr⟩ := transact_err_ran hlen ha
  exact ⟨t, by rw [opWriteRegister, h]; rfl, hr⟩

theorem opReadRegister_ran {a : RegAddr} {w : Nat} {st : Byte} {v : List Byte} {s : State} (hw : widthOk w = true)
    (ha : Answers s 2 [.ok (st :: v)]) (hv : v.length = w) :
    ∃ t, opReadRegister p a w s = .done (st, v) t ∧
      Ran s t s.mode s.cfg s.ce (transactionEvents (encodeFrame p (.readRegister a w)) (.ok (st :: v))) 2 1 := by
  have hlen := readRegister_short (a := a) hw
  obtain ⟨t, h, hr⟩ := transact_ran (c := .readRegister a w) hw hlen ha (by simp [frameLen]; omega)
  refine ⟨t, ?_, hr⟩
  rw [opReadRegister, h]
  simp [statusOf, decodeResponse, Response.bytes, List.take_of_length_le (Nat.le_of_eq hv)]

theorem opReadRegister_err_ran {a : RegAddr} {w : Nat} {s : State} {e : TransportError} (hw : widthOk w = true)
    (ha : Answers s 2 [.err e]) :
    ∃ t, opReadRegister p a w s = .stop (.transportFailure e) t ∧
      Ran s t s.mode s.cfg s.ce (transactionEvents (encodeFrame p (.readRegister a w)) (.err e)) 2 1 := by
  have hlen := readRegister_short (a := a) hw
  obtain ⟨t, h, hr⟩ := transact_err_ran (c := .readRegister a w) hlen ha
  exact ⟨t, by rw [opReadRegister, h]; rfl, hr⟩

/-- R104: the events and answers of `update_config`, whether or not it writes. -/
theorem updateConfigWith_ran {f : Byte → Byte × MutResult} {s : State} {rx : List Byte} (hrx : rx.length = 2)
    (ha : Answers s (2 * (configAnswers s.cfg (f s.cfg).1 rx).length) (configAnswers s.cfg (f s.cfg).1 rx)) :
    ∃ t, updateConfigWith p f s = .done (f s.cfg).2 t ∧
      Ran s t s.mode (f s.cfg).1 s.ce (configWrite p s.cfg (f s.cfg).1 rx)
        (2 * (configAnswers s.cfg (f s.cfg).1 rx).length) (configAnswers s.cfg (f s.cfg).1 rx).length := by
  unfold updateConfigWith
  by_cases h : (f s.cfg).1 ≠ s.cfg
  · simp only [if_pos h, configAnswers, configWrite] at ha ⊢
    obtain ⟨t, ht, hr⟩ := opWriteRegister_ran (a := p.ADDR_CONFIG) (w := 1) (v := [(f s.cfg).1]) (rx := rx)
      (s := (s.setTemps [s.cfg] [(f s.cfg).1]).setCfg (f s.cfg).1) (by rfl) ha hrx
    refine ⟨t, by rw [ht]; rfl, ?_⟩
    exact ⟨hr.params, hr.mode, hr.cfg, hr.ce, hr.live, hr.fault, hr.trace, hr.outcomes, hr.lineAnswers, hr.exchAnswers, hr.requests⟩
  · simp only [if_neg h, configAnswers, configWrite]
    exact ⟨_, rfl, ⟨rfl, rfl, rfl, rfl, rfl, rfl, by simp, rfl, by simp, by simp, rfl⟩⟩

/-- R104, R110: a failing write of `update_config` keeps the changed cache. -/
theorem updateConfigWith_err_ran {f : Byte → Byte × MutResult} {s : State} {e : TransportError}
    (h : (f s.cfg).1 ≠ s.cfg) (ha : Answers s 2 [.err e]) :
    ∃ t, updateConfigWith p f s = .stop (.transportFailure e) t ∧
      Ran s t s.mode (f s.cfg).1 s.ce (transactionEvents (configFrame p (f s.cfg).1) (.err e)) 2 1 := by
  unfold updateConfigWith
  simp only [if_pos h]
  obtain ⟨t, ht, hr⟩ := opWriteRegister_err_ran (a := p.ADDR_CONFIG) (w := 1) (v := [(f s.cfg).1]) (e := e)
    (s := (s.setTemps [s.cfg] [(f s.cfg).1]).setCfg (f s.cfg).1) (by rfl) ha
  refine ⟨t, by rw [ht]; rfl, ?_⟩
  exact ⟨hr.params, hr.mode, hr.cfg, hr.ce, hr.live, hr.fault, hr.trace, hr.outcomes, hr.lineAnswers, hr.exchAnswers, hr.requests⟩

/-! ## The mode machine -/

/-- R113: "ensure Tx". -/
theorem opEnterTx_ran {s : State} {rx0 : List Byte} (hrx : rx0.length = 2)
    (ha : Answers s (txLines s rx0) (txAnswers s rx0)) :
    ∃ t, opEnterTx s.params s = .done () t ∧
      Ran s t .tx (txCfg s) (txCe s) (txEvents s rx0) (txLines s rx0) (txAnswers s rx0).length := by
  by_cases h : s.mode = .tx
  · refine ⟨s, by simp [opEnterTx, h], ?_⟩
    simpa [txCfg, txCe, txEvents, txLines, txAnswers, h] using Ran.refl s
  · simp only [txLines, txAnswers, txEvents, txCe, txCfg, if_neg h] at ha ⊢
    obtain ⟨s1, h1, r1⟩ := pin_ce_ran false (ha.front (xs := []) (l' := 1) (by omega))
    have ha1 := ha.rest (xs := []) (l2 := 2 * (configAnswers s.cfg (setPrimRx s.params s.cfg false) rx0).length) rfl r1
    rw [← r1.cfg] at ha1
    obtain ⟨s2, h2, r2⟩ := updateConfigWith_ran (f := fun c => (setPrimRx s.params c false, .unit)) hrx ha1
    refine ⟨s2.setMode .tx, by rw [opEnterTx, if_neg h, h1, Res.andThen_done, h2, Res.andThen_done], ?_⟩
    have r := r1.trans r2
    rw [r1.cfg] at r
    exact ⟨r.params, rfl, r.cfg, r.ce.trans r1.ce, r.live, r.fault, r.trace, r.outcomes, r.lineAnswers, by simpa using r.exchAnswers, r.requests⟩

/-- R113, R121: "ensure Tx" whose CONFIG write fails. -/
theorem opEnterTx_err_ran {s : State} {e : TransportError} (h : s.mode ≠ .tx) (hc : txCfg s ≠ s.cfg)
    (ha : Answers s 3 [.err e]) :
    ∃ t, opEnterTx s.params s = .stop (.transportFailure e) t ∧
      Ran s t s.mode (txCfg s) false (.pinWrite .ce false :: transactionEvents (configFrame s.params (txCfg s)) (.err e)) 3 1 := by
  simp only [txCfg, if_neg h] at hc ⊢
  obtain ⟨s1, h1, r1⟩ := pin_ce_ran false (ha.front (xs := []) (l' := 1) (by omega))
  have ha1 := ha.rest (xs := []) (l1 := 1) (l2 := 2) rfl r1
  rw [← r1.cfg] at hc ⊢
  obtain ⟨s2, h2, r2⟩ := updateConfigWith_err_ran (f := fun c => (setPrimRx s.params c false, .unit)) hc ha1
  refine ⟨s2, by rw [opEnterTx, if_neg h, h1, Res.andThen_done, h2, Res.andThen_stop], ?_⟩
  have r := r1.trans r2
  exact ⟨r.params, r.mode.trans r1.mode, r.cfg, r.ce.trans r1.ce, r.live, r.fault, r.trace, r.outcomes, r.lineAnswers, r.exchAnswers, r.requests⟩

/-- The FIFO_STATUS poll. -/
theorem pollFifo_ran {s : State} {st f : Byte} (ha : Answers s 2 [.ok [st, f]]) :
    ∃ t, pollFifo p s = .done (st, f) t ∧ Ran s t s.mode s.cfg s.ce (transactionEvents (pollFrame p) (.ok [st, f])) 2 1 := by
  obtain ⟨t, h, r⟩ := opReadRegister_ran (a := p.ADDR_FIFO_STATUS) (w := 1) (by rfl) ha rfl
  exact ⟨t, by rw [pollFifo, h]; rfl, r⟩

theorem pollFifo_err_ran {s : State} {e : TransportError} (ha : Answers s 2 [.err e]) :
    ∃ t, pollFifo p s = .stop (.transportFailure e) t ∧
      Ran s t s.mode s.cfg s.ce (transactionEvents (pollFrame p) (.err e)) 2 1 := by
  obtain ⟨t, h, r⟩ := opReadRegister_err_ran (a := p.ADDR_FIFO_STATUS) (w := 1) (by rfl) ha
  exact ⟨t, by rw [pollFifo, h]; rfl, r⟩

/-- "Ensure Tx" and one poll after it, as the two TX polls begin. -/
theorem enterTx_pollFifo_ran {s : State} {rx0 : List Byte} {st f : Byte} (hrx : rx0.length = 2)
    (ha : Answers s (txLines s rx0 + 2) (txAnswers s rx0 ++ [.ok [st, f]])) :
    ∃ s1 t, opEnterTx s.params s = .done () s1 ∧ pollFifo s.params s1 = .done (st, f) t ∧
      Ran s t .tx (txCfg s) (txCe s) (txEvents s rx0 ++ transactionEvents (pollFrame s.params) (.ok [st, f])) (txLines s rx0 + 2)
        ((txAnswers s rx0).length + 1) := by
  obtain ⟨s1, h1, r1⟩ := opEnterTx_ran hrx (ha.front (by omega))
  obtain ⟨t, h2, r2⟩ := pollFifo_ran (ha.rest rfl r1)
  have r := r1.trans r2
  rw [r1.mode, r1.cfg, r1.ce] at r
  exact ⟨s1, t, h1, h2, r⟩

theorem enterTx_pollFifo_err_ran {s : State} {rx0 : List Byte} {e : TransportError} (hrx : rx0.length = 2)
    (ha : Answers s (txLines s rx0 + 2) (txAnswers s rx0 ++ [.err e])) :
    ∃ s1 t, opEnterTx s.params s = .done () s1 ∧ pollFifo s.params s1 = .stop (.transportFailure e) t ∧
      Ran s t .tx (txCfg s) (txCe s) (txEvents s rx0 ++ transactionEvents (pollFrame s.params) (.err e)) (txLines s rx0 + 2)
        ((txAnswers s rx0).length + 1) := by
  obtain ⟨s1, h1, r1⟩ := opEnterTx_ran hrx (ha.front (by omega))
  obtain ⟨t, h2, r2⟩ := pollFifo_err_ran (ha.rest rfl r1)
  have r := r1.trans r2
  rw [r1.mode, r1.cfg, r1.ce] at r
  exact ⟨s1, t, h1, h2, r⟩

/-- R116: `wait_tx_empty` that finds the TX FIFO empty. -/
theorem opWaitTxEmpty_ran {s : State} {rx0 : List Byte} {st f : Byte} (hrx : rx0.length = 2) (hm : maxRt s.params st = false)
    (he : txEmpty s.params f = true) (ha : Answers s (txLines s rx0 + 3) (txAnswers s rx0 ++ [.ok [st, f]])) :
    ∃ t, opWaitTxEmpty s.params s = .done () t ∧
      Ran s t .tx (txCfg s) false (txEvents s rx0 ++ transactionEvents (pollFrame s.params) (.ok [st, f]) ++ [.pinWrite .ce false])
        (txLines s rx0 + 3) ((txAnswers s rx0).length + 1) := by
  obtain ⟨s1, s2, h1, h2, r2⟩ := enterTx_pollFifo_ran hrx (Answers.front (ys := []) (l := txLines s rx0 + 3)
    (by simpa using ha) (by omega))
  have ha2 := Answers.rest (t := s2) (ys := []) (l1 := txLines s rx0 + 2) (l2 := 1) (by simpa using ha) rfl (by simpa using r2)
  obtain ⟨t, h3, r3⟩ := pin_ce_ran false ha2
  refine ⟨t, ?_, ?_⟩
  · rw [opWaitTxEmpty, h1, Res.andThen_done, h2, Res.andThen_done]
    simp [hm, he, h3]
  · have r := r2.trans r3
    rw [r2.mode, r2.cfg] at r
    exact r

/-- R112: "ensure Rx" that finds the TX FIFO empty. -/
theorem opEnterRx_ran {s : State} {rx0 rx1 : List Byte} {st f : Byte} (h0 : rx0.length = 2) (h1 : rx1.length = 2)
    (hm : maxRt s.params st = false) (he : txEmpty s.params f = true)
    (ha : Answers s (rxLines s rx0 rx1) (rxAnswers s rx0 [st, f] rx1)) :
    ∃ t, opEnterRx s.params s = .done () t ∧
      Ran s t .rx (rxCfg s) (rxCe s) (rxEvents s rx0 [st, f] rx1) (rxLines s rx0 rx1) (rxAnswers s rx0 [st, f] rx1).length := by
  by_cases h : s.mode = .rx
  · refine ⟨s, by simp [opEnterRx, h], ?_⟩
    simpa [rxCfg, rxCe, rxEvents, rxLines, rxAnswers, h] using Ran.refl s
  · have hcfg : rxCfg s = setPrimRx s.params (txCfg s) true := if_neg h
    simp only [rxLines, rxAnswers, rxEvents, rxCe, if_neg h] at ha ⊢
    obtain ⟨s1, e1, r1⟩ := opWaitTxEmpty_ran h0 hm he (ha.front (l' := txLines s rx0 + 3) (by omega))
    have ha1 := Answers.rest (t := s1) (l1 := txLines s rx0 + 3)
      (l2 := 1 + 2 * (configAnswers (txCfg s) (rxCfg s) rx1).length) ha (by omega) (by simpa using r1)
    obtain ⟨s2, e2, r2⟩ := pin_ce_ran true (Answers.front (xs := []) (l' := 1) ha1 (Nat.le_add_right 1 _))
    have ha2 := Answers.rest (xs := []) ha1 rfl r2
    rw [r1.cfg] at r2
    rw [hcfg, ← r2.cfg] at ha2
    obtain ⟨s3, e3, r3⟩ := updateConfigWith_ran (f := fun c => (setPrimRx s.params c true, .unit)) h1 ha2
    refine ⟨s3.setMode .rx, ?_, ?_⟩
    · rw [opEnterRx, if_neg h, e1, Res.andThen_done, e2, Res.andThen_done, e3, Res.andThen_done]
    · have r := (r1.trans r2).trans r3
      rw [r2.cfg, ← hcfg] at r
      refine ⟨r.params, rfl, r.cfg, r.ce.trans r2.ce, r.live, r.fault, ?_, r.outcomes, ?_, ?_, r.requests⟩
      · exact r.trace.trans (by simp)
      · exact r.lineAnswers.trans (by congr 1)
      · exact r.exchAnswers.trans (by congr 1; simp; omega)

end Sys2Proof.Machine
end

