-- ==== Sys2Proof/Tests/Slice0.lean ====
section
/-! SUPPORT. Tests on fixed values, and for every statement with hypotheses a witness that meets them
together.  Expected results are those of spec/95_test_vectors.md (the table is named at each group) or
of the rule named. -/

namespace Sys2Proof.Tests

open Sys2Proof Sys2Proof.Machine

/-! ## Helpers -/

/-- R8's defaults, which the vectors take throughout unless they say otherwise. -/
abbrev dflt : Config.Params := Config.defaults

/-- A valid record in which no opcode, address or bit used below has its default. -/
def other : Config.Params :=
  { OP_W_TX_PAYLOAD := 0xB0#8, OP_FLUSH_TX := 0xC1#8, ADDR_CONFIG := 0x11#5, ADDR_FIFO_STATUS := 0x00#5,
    CFG_PRIM_RX := 7, FS_TX_EMPTY := 0, FS_RX_EMPTY := 4 }

/-- A block in use, with the answers the environment is going to give; its line writes succeed. -/
def ready (m : Mode) (c : Byte) (ce : Bool) (xs : List Answer) : State :=
  { State.reset with
    mode := m, cfg := c, ce := ce, live := true, exchAnswers := xs, lineAnswers := List.replicate 16 true }

/-- A block in use whose line writes go as `ls` says. -/
def onLines (ls : List Bool) (xs : List Answer) : State := { ready .tx 0x0A#8 false xs with lineAnswers := ls }

/-- A block that was never constructed, with answers and good lines. -/
def fresh (xs : List Answer) : State := { State.reset with exchAnswers := xs, lineAnswers := List.replicate 16 true }

/-- A block that has faulted. -/
def faulted : State := { ready .rx 0x0B#8 true [] with fault := true }

/-- The vectors' tuple (live, fault, mode, cfg, ce, csn). -/
structure Block where
  live : Bool
  fault : Bool
  mode : Mode
  cfg : Byte
  ce : Bool
  csn : Bool
deriving DecidableEq, Repr

/-- What the vectors write down: the events, the outcomes and the tuple. -/
def seen (o : Host.Outcome State Fault Refusal) : Option (List Event × List OpOutcome × Block) :=
  match o with
  | .next s => some (s.trace, s.outcomes, ⟨s.live, s.fault, s.mode, s.cfg, s.ce, s.csn⟩)
  | .fault _ => none
  | .refused _ => none

/-- The same where a construction has failed and left `mode` and `cfg` unspecified (R32). -/
def seenFailed (o : Host.Outcome State Fault Refusal) :
    Option (List Event × List OpOutcome × Bool × Bool × Bool × Bool) :=
  match o with
  | .next s => some (s.trace, s.outcomes, s.live, s.fault, s.ce, s.csn)
  | .fault _ => none
  | .refused _ => none

/-- `T [frame] -> [response]` of the vectors. -/
def T (frame rx : List Byte) : List Event := [.pinWrite .csn false, .exchange frame (.ok rx), .pinWrite .csn true]

/-- `T [frame] -> Err(e)` of the vectors. -/
def TErr (frame : List Byte) (e : TransportError) : List Event :=
  [.pinWrite .csn false, .exchange frame (.err e), .pinWrite .csn true]

/-- The vectors' `e`. -/
def e : TransportError := ⟨7⟩

/-- The mutator `v => (v', ())` for a constant `v'`. -/
def toConst (v : List Byte) : Mutator := ⟨[], [.replace v], .const .unit⟩

/-- The mutator `v => (v, ())`. -/
def same : Mutator := ⟨[], [], .const .unit⟩

/-- `c => (set_pwr_up(c, 1), ())`. -/
def powerUp : Mutator := ⟨[], [.setField 0 ⟨1, 1⟩ 1#8], .const .unit⟩

/-- `c => (set_prim_rx(c, 1), ())`. -/
def toPrimRx : Mutator := ⟨[], [.setField 0 ⟨0, 0⟩ 1#8], .const .unit⟩

/-! ## WellFormed: for each check a term it refuses -/

theorem test_wf_refuses_register_widths :
    (Instr.readRegister 3#5 0).wf = false ∧ (Instr.readRegister 3#5 6).wf = false ∧
    (Instr.wireReadRegister 3#5 0).wf = false ∧ (Instr.wireReadRegister 3#5 6).wf = false := by decide

theorem test_wf_refuses_value_of_another_width :
    (Instr.writeRegister 3#5 2 [1#8]).wf = false ∧ (Instr.wireWriteRegister 3#5 1 [1#8, 2#8]).wf = false ∧
    (Instr.writeRegister 3#5 6 (List.replicate 6 1#8)).wf = false ∧
    (Instr.sendCommand (.writeRegister 3#5 2 [1#8])).wf = false := by decide

theorem test_wf_refuses_frames_over_33_bytes :
    (Instr.wireReadRxPayload 33).wf = false ∧ (Instr.wireWriteTxPayload (List.replicate 33 0#8)).wf = false := by decide

theorem test_wf_refuses_bad_fields :
    Edit.wf 1 (.setField 1 ⟨0, 0⟩ 0#8) = false ∧ Edit.wf 1 (.setField 0 ⟨0, 1⟩ 0#8) = false ∧
    Edit.wf 1 (.setField 0 ⟨8, 7⟩ 0#8) = false ∧ Edit.wf 1 (.setField 0 ⟨1, 0⟩ 4#8) = false := by decide

theorem test_wf_refuses_operands_of_another_width :
    Edit.wf 1 (.replace []) = false ∧ Edit.wf 1 (.orMask [1#8, 1#8]) = false ∧ Edit.wf 2 (.andMask [1#8]) = false ∧
    Edit.wf 2 (.xorMask [1#8]) = false := by decide

theorem test_wf_refuses_bad_mutators :
    Mutator.wf 1 ⟨[⟨[1#8], [], .unit⟩], [], .const .unit⟩ = false ∧ Mutator.wf 1 ⟨[], [.replace []], .const .unit⟩ = false ∧
    Mutator.wf 1 ⟨[], [], .oldByte 1⟩ = false := by decide

theorem test_wf_refuses_operations_with_bad_mutators :
    (Instr.updateRegister 4#5 1 (toConst [])).wf = false ∧ (Instr.updateRegister 4#5 0 same).wf = false ∧
    (Instr.updateConfig (toConst [1#8, 2#8])).wf = false := by decide

theorem test_wf_refuses_batches_with_a_bad_element :
    (Instr.construct [.writeRegister 5#5 2 [0x4C#8]]).wf = false ∧ (Instr.construct [.updateRegister 5#5 6 same]).wf = false ∧
    (Instr.construct [.updateConfig (toConst [])]).wf = false ∧
    (Instr.construct [.sendCommand (.readRegister 5#5 0)]).wf = false := by decide

theorem test_decoder_refuses_ill_formed_operands :
    decode dflt ⟨.op, [5#8, 3#8, 5#8]⟩ = .error .malformedOperands ∧
    decode dflt ⟨.op, [5#8, 32#8, 0#8]⟩ = .error .malformedOperands ∧
    decode dflt ⟨.op, [9#8, 0#8]⟩ = .error .malformedOperands ∧
    decode dflt ⟨.op, [4#8, 3#8, 1#8, 1#8]⟩ = .error .malformedOperands := by decide

/-! ## Decoding: words written out from the encodings (R55, R62, R69; vectors V2) -/

theorem test_decode_ReadRegister :
    decode dflt ⟨.wire, [0b00010111#8, 0x00#8]⟩ = .ok (.wireReadRegister 0x17#5 1) ∧
    decode dflt ⟨.wire, [0x0A#8, 0#8, 0#8, 0#8, 0#8, 0#8]⟩ = .ok (.wireReadRegister 0x0A#5 5) := by decide

theorem test_decode_WriteRegister :
    decode dflt ⟨.wire, [0b00111111#8, 0xAB#8]⟩ = .ok (.wireWriteRegister 0x1F#5 1 [0xAB#8]) ∧
    decode dflt ⟨.wire, [0x30#8, 1#8, 2#8, 3#8, 4#8, 5#8]⟩ = .ok (.wireWriteRegister 0x10#5 5 [1#8, 2#8, 3#8, 4#8, 5#8]) := by decide

theorem test_decode_payload_commands :
    decode dflt ⟨.wire, [0b01100001#8]⟩ = .ok (.wireReadRxPayload 0) ∧
    decode dflt ⟨.wire, 0x61#8 :: List.replicate 32 0#8⟩ = .ok (.wireReadRxPayload 32) ∧
    decode dflt ⟨.wire, [0b10100000#8, 0xAA#8, 0xBB#8]⟩ = .ok (.wireWriteTxPayload [0xAA#8, 0xBB#8]) := by decide

theorem test_decode_short_commands :
    decode dflt ⟨.wire, [0b01100000#8, 0x00#8]⟩ = .ok .wireReadRxPayloadWidth ∧
    decode dflt ⟨.wire, [0b11100001#8]⟩ = .ok .wireFlushTx ∧ decode dflt ⟨.wire, [0b11100010#8]⟩ = .ok .wireFlushRx ∧
    decode dflt ⟨.wire, [0b01010000#8, 0x73#8]⟩ = .ok .wireActivate := by decide

/-- V2: the captured frames that are rejected. -/
theorem test_decode_rejects :
    ([[0x00#8], [0x20#8, 1#8, 2#8, 3#8, 4#8, 5#8, 6#8], [0xE1#8, 0x00#8], [0x60#8], [0x40#8], [0xFF#8], [0xE3#8],
      [0xA8#8, 0x00#8], 0x61#8 :: List.replicate 33 0#8] : List (List Byte)).all (fun f => decodeFrame dflt f == none) = true := by
  decide

/-- R69: the select codes of the operations without operands, as words of the table. -/
theorem test_decode_operations_without_operands :
    [0b00001, 0b00010, 0b01000, 0b01001, 0b01010, 0b01100, 0b01101, 0b01110, 0b01111, 0b10000].map (decodeTableWord 8) =
      [some .ceEnable, some .ceDisable, some .isConnected, some .enterRx, some .enterTx, some .waitTxReady,
        some .waitTxEmpty, some .waitRxReady, some .read, some .clearInterrupts] := by decide

/-- R69 and log entry 2: the operations with operands. -/
theorem test_decode_operations_with_operands :
    decode dflt ⟨.op, [0b00000#8, 1#8, 4#8, 5#8, 0#8, 0x4C#8]⟩ = .ok (.construct [.writeRegister 5#5 1 [0x4C#8]]) ∧
    decode dflt ⟨.op, [0b00011#8, 0xE1#8]⟩ = .ok (.sendCommand .flushTx) ∧
    decode dflt ⟨.op, [0b00100#8, 0x05#8, 0#8, 0x4C#8]⟩ = .ok (.writeRegister 5#5 1 [0x4C#8]) ∧
    decode dflt ⟨.op, [0b00101#8, 0x0A#8, 4#8]⟩ = .ok (.readRegister 0x0A#5 5) ∧
    decode dflt ⟨.op, [0b01011#8, 2#8, 0xAA#8, 0xBB#8]⟩ = .ok (.send [0xAA#8, 0xBB#8]) := by decide

theorem test_decode_operations_with_mutators :
    decode dflt ⟨.op, [0b00110#8, 0x04#8, 0#8, 0#8, 1#8, 1#8, 1#8, 0x1F#8, 0#8, 0#8]⟩ = .ok (.updateRegister 4#5 1 (toConst [0x1F#8])) ∧
    decode dflt ⟨.op, [0b00111#8, 0#8, 1#8, 0#8, 0#8, 1#8, 1#8, 1#8, 0#8, 0#8]⟩ = .ok (.updateConfig powerUp) := by decide

theorem test_decode_table_words_of_wire_commands :
    [0x1F, 0x20, 0x61, 0x60, 0xA0, 0xE1, 0xE2, 0x50].map (decodeTableWord 8) =
      [some (.wireReadRegister 0x1F#5 1), some (.wireWriteRegister 0#5 1 [0#8]), some (.wireReadRxPayload 0),
        some .wireReadRxPayloadWidth, some (.wireWriteTxPayload []), some .wireFlushTx, some .wireFlushRx,
        some .wireActivate] := by decide

/-- R9: the batch operand may be left out, and is then empty. -/
theorem test_decode_construct_default_batch :
    decode dflt ⟨.op, [0b00000#8]⟩ = .ok (.construct []) ∧ decode dflt ⟨.op, [0b00000#8, 0#8]⟩ = .ok (.construct []) ∧
    decodeTableWord 8 0b00000 = some (.construct []) := by decide

/-- R8: another record gives the same command other bytes. -/
theorem test_decode_with_other_parameters :
    decode other ⟨.wire, [0xC1#8]⟩ = .ok .wireFlushTx ∧ decode other ⟨.wire, [0xE1#8]⟩ = .error .rejectedFrame ∧
    encode other (.wireWriteTxPayload [0xAA#8]) = ⟨.wire, [0xB0#8, 0xAA#8]⟩ := by decide

/-! ## Register model (vectors V1) -/

theorem test_get_and_set :
    get 0x4E#8 3 1 = 7#8 ∧ get 0x44#8 3 1 = 2#8 ∧ get 0xFF#8 7 0 = 0xFF#8 ∧ get 0x80#8 7 7 = 1#8 ∧ get 0x7F#8 7 7 = 0#8 ∧
    set 0x08#8 0 0 1#8 = 0x09#8 ∧ set 0xFF#8 1 0 0#8 = 0xFC#8 ∧ set 0x00#8 3 1 5#8 = 0x0A#8 ∧ set 0xFF#8 3 1 0#8 = 0xF1#8 ∧
    set 0x5A#8 6 4 3#8 = 0x3A#8 := by decide

theorem test_status_accessors :
    [0x01#8, 0x1E#8, 0x2E#8, 0x44#8, 0x8E#8].map (fun s => (rxDr dflt s, txDs dflt s, maxRt dflt s, (rxPNo dflt s).toNat, stTxFull dflt s)) =
      [(false, false, false, 0, true), (false, false, true, 7, false), (false, true, false, 7, false),
        (true, false, false, 2, false), (false, false, false, 7, false)] := by decide

theorem test_config_setters :
    setPrimRx dflt 0x0A#8 true = 0x0B#8 ∧ setPrimRx dflt 0x0B#8 false = 0x0A#8 ∧ setPwrUp dflt 0x08#8 true = 0x0A#8 ∧
    setCrco dflt 0x08#8 true = 0x0C#8 ∧ setMaskRxDr dflt 0x08#8 true = 0x48#8 ∧ setMaskTxDs dflt 0x08#8 true = 0x28#8 ∧
    setMaskMaxRt dflt 0x08#8 true = 0x18#8 := by decide

theorem test_fifo_and_aw_accessors :
    [0x10#8, 0x12#8, 0x21#8, 0x41#8].map (fun f => (rxEmpty dflt f, rxFull dflt f, txEmpty dflt f, txFull dflt f, txReuse dflt f)) =
      [(false, false, true, false, false), (false, true, true, false, false), (true, false, false, true, false),
        (true, false, false, false, true)] ∧
    [0x00#8, 0x03#8, 0x04#8, 0x80#8, 0xFF#8].map plausibleAw = [true, true, false, false, false] := by decide

/-- V1: the initial cache of R153 for three reset patterns of CONFIG. -/
theorem test_initial_cache :
    initialCfg dflt = 0x08#8 ∧ initialCfg { CONFIG_RESET := 0x78#8 } = 0x08#8 ∧
    initialCfg { CONFIG_RESET := 0xFF#8 } = 0x8F#8 := by decide

/-! ## Wire commands (vectors S2) -/

theorem test_wireReadRegister :
    seen (exec (.wireReadRegister 0x17#5 1) (ready .tx 0x0A#8 false [.ok [0x0E#8, 0x11#8]])) =
      some (T [0x17#8, 0x00#8] [0x0E#8, 0x11#8], [.ok (.command 0x0E#8 (.register [0x11#8]))],
        ⟨true, false, .tx, 0x0A#8, false, true⟩) := by decide

theorem test_wireWriteRegister :
    seen (exec (.wireWriteRegister 0x07#5 1 [0x70#8]) (ready .tx 0x0A#8 false [.ok [0x4E#8, 0x00#8]])) =
      some (T [0x27#8, 0x70#8] [0x4E#8, 0x00#8], [.ok (.command 0x4E#8 .unit)],
        ⟨true, false, .tx, 0x0A#8, false, true⟩) := by
  decide

theorem test_wireReadRxPayload :
    seen (exec (.wireReadRxPayload 3) (ready .rx 0x0B#8 true [.ok [0x40#8, 1#8, 2#8, 3#8]])) =
      some (T [0x61#8, 0#8, 0#8, 0#8] [0x40#8, 1#8, 2#8, 3#8], [.ok (.command 0x40#8 (.payload [1#8, 2#8, 3#8]))],
        ⟨true, false, .rx, 0x0B#8, true, true⟩) := by decide

theorem test_wireReadRxPayloadWidth :
    seen (exec .wireReadRxPayloadWidth (ready .rx 0x0B#8 true [.ok [0x44#8, 0x03#8]])) =
      some (T [0x60#8, 0x00#8] [0x44#8, 0x03#8], [.ok (.command 0x44#8 (.width 3#8))],
        ⟨true, false, .rx, 0x0B#8, true, true⟩) := by decide

theorem test_wireWriteTxPayload :
    seen (exec (.wireWriteTxPayload [0xAA#8, 0xBB#8]) (ready .tx 0x0A#8 false [.ok [0x0E#8, 0#8, 0#8]])) =
      some (T [0xA0#8, 0xAA#8, 0xBB#8] [0x0E#8, 0#8, 0#8], [.ok (.command 0x0E#8 .unit)],
        ⟨true, false, .tx, 0x0A#8, false, true⟩) := by decide

theorem test_wireFlushTx :
    seen (exec .wireFlushTx (ready .tx 0x0A#8 false [.ok [0x1E#8]])) =
      some (T [0xE1#8] [0x1E#8], [.ok (.command 0x1E#8 .unit)], ⟨true, false, .tx, 0x0A#8, false, true⟩) := by decide

theorem test_wireFlushRx :
    seen (exec .wireFlushRx (ready .tx 0x0A#8 false [.ok [0x0E#8]])) =
      some (T [0xE2#8] [0x0E#8], [.ok (.command 0x0E#8 .unit)], ⟨true, false, .tx, 0x0A#8, false, true⟩) := by decide

theorem test_wireActivate :
    seen (exec .wireActivate (ready .tx 0x0A#8 false [.ok [0x0E#8, 0x00#8]])) =
      some (T [0x50#8, 0x73#8] [0x0E#8, 0x00#8], [.ok (.command 0x0E#8 .unit)],
        ⟨true, false, .tx, 0x0A#8, false, true⟩) := by
  decide

/-! ## The Transport (vectors V3, S8) -/

theorem test_sendCommand_error_releases_chip_select :
    seen (exec (.sendCommand (.readRxPayload 2)) (ready .tx 0x0A#8 false [.err e])) =
      some (TErr [0x61#8, 0#8, 0#8] e, [.transportFailure e], ⟨true, false, .tx, 0x0A#8, false, true⟩) := by decide

theorem test_sendCommand_failed_release_loses_status :
    seen (exec (.sendCommand .flushTx) (onLines [true, false] [.ok [0x0E#8]])) =
      some (T [0xE1#8] [0x0E#8], [.fault (.lineWriteFailed .csn)],
        ⟨true, true, .tx, 0x0A#8, false, true⟩) := by decide

theorem test_writeRegister_config_leaves_the_cache :
    seen (exec (.writeRegister 0#5 1 [0x0B#8]) (ready .tx 0x0A#8 false [.ok [0x0E#8, 0x00#8]])) =
      some (T [0x20#8, 0x0B#8] [0x0E#8, 0x00#8], [.ok (.status 0x0E#8)],
        ⟨true, false, .tx, 0x0A#8, false, true⟩) := by decide

theorem test_readRegister_keeps_byte_order :
    seen (exec (.readRegister 0x10#5 5) (ready .tx 0x0A#8 false [.ok [0x0E#8, 0xA1#8, 0xA2#8, 0xA3#8, 0xA4#8, 0xA5#8]])) =
      some (T [0x10#8, 0#8, 0#8, 0#8, 0#8, 0#8] [0x0E#8, 0xA1#8, 0xA2#8, 0xA3#8, 0xA4#8, 0xA5#8],
        [.ok (.register 0x0E#8 [0xA1#8, 0xA2#8, 0xA3#8, 0xA4#8, 0xA5#8])], ⟨true, false, .tx, 0x0A#8, false, true⟩) := by decide

/-- V3: `v => ([v[0] | 0x0F], v[0])`. -/
theorem test_updateRegister_writes_and_answers_the_mutator :
    seen (exec (.updateRegister 4#5 1 ⟨[], [.orMask [0x0F#8]], .oldByte 0⟩)
      (ready .tx 0x0A#8 false [.ok [0x0E#8, 0x03#8], .ok [0x0E#8, 0x00#8]])) =
      some (T [0x04#8, 0x00#8] [0x0E#8, 0x03#8] ++ T [0x24#8, 0x0F#8] [0x0E#8, 0x00#8], [.ok (.mutator (.byte 0x03#8))],
        ⟨true, false, .tx, 0x0A#8, false, true⟩) := by decide

theorem test_updateRegister_same_value_is_one_transaction :
    seen (exec (.updateRegister 5#5 1 (toConst [0x4C#8])) (ready .tx 0x0A#8 false [.ok [0x0E#8, 0x4C#8]])) =
      some (T [0x05#8, 0x00#8] [0x0E#8, 0x4C#8], [.ok (.mutator .unit)],
        ⟨true, false, .tx, 0x0A#8, false, true⟩) := by decide

/-- S3, fifth row: `c => (set_prim_rx(set_crco(c, 1), 1), 7)`. -/
theorem test_updateConfig_writes :
    seen (exec (.updateConfig ⟨[], [.setField 0 ⟨2, 2⟩ 1#8, .setField 0 ⟨0, 0⟩ 1#8], .const (.nat 7)⟩)
      (ready .tx 0x0A#8 false [.ok [0x0E#8, 0x00#8]])) =
      some (T [0x20#8, 0x0F#8] [0x0E#8, 0x00#8], [.ok (.mutator (.nat 7))],
        ⟨true, false, .tx, 0x0F#8, false, true⟩) := by decide

theorem test_updateConfig_error_keeps_the_new_cache :
    seen (exec (.updateConfig toPrimRx) (ready .tx 0x0A#8 false [.err e])) =
      some (TErr [0x20#8, 0x0B#8] e, [.transportFailure e], ⟨true, false, .tx, 0x0B#8, false, true⟩) := by decide

theorem test_isConnected_bounds :
    seen (exec .isConnected (ready .tx 0x0A#8 false [.ok [0x0E#8, 0x03#8]])) =
      some (T [0x03#8, 0x00#8] [0x0E#8, 0x03#8], [.ok (.bool true)], ⟨true, false, .tx, 0x0A#8, false, true⟩) ∧
    seen (exec .isConnected (ready .tx 0x0A#8 false [.ok [0x0E#8, 0x04#8]])) =
      some (T [0x03#8, 0x00#8] [0x0E#8, 0x04#8], [.ok (.bool false)],
        ⟨true, false, .tx, 0x0A#8, false, true⟩) := by decide

theorem test_ceEnable :
    seen (exec .ceEnable (onLines [true] [])) =
      some ([.pinWrite .ce true], [.ok .unit], ⟨true, false, .tx, 0x0A#8, true, true⟩) ∧
    seen (exec .ceEnable (onLines [false] [])) =
      some ([.pinWrite .ce true], [.fault (.lineWriteFailed .ce)], ⟨true, true, .tx, 0x0A#8, true, true⟩) := by decide

theorem test_ceDisable_writes_a_low_line_again :
    seen (exec .ceDisable (onLines [true] [])) =
      some ([.pinWrite .ce false], [.ok .unit], ⟨true, false, .tx, 0x0A#8, false, true⟩) := by decide

/-! ## The mode machine (vectors V4, S6, S7) -/

theorem test_enterTx_from_rx :
    seen (exec .enterTx (ready .rx 0x4B#8 true [.ok [0x0E#8, 0x00#8]])) =
      some (.pinWrite .ce false :: T [0x20#8, 0x4A#8] [0x0E#8, 0x00#8], [.ok .unit],
        ⟨true, false, .tx, 0x4A#8, false, true⟩) := by
  decide

theorem test_enterTx_bus_error :
    seen (exec .enterTx (ready .rx 0x0B#8 true [.err e])) =
      some (.pinWrite .ce false :: TErr [0x20#8, 0x0A#8] e, [.transportFailure e],
        ⟨true, false, .rx, 0x0A#8, false, true⟩) := by
  decide

theorem test_enterRx_from_standby :
    seen (exec .enterRx (ready .standby 0x0A#8 false [.ok [0x0E#8, 0x11#8], .ok [0x0E#8, 0x00#8]])) =
      some ([.pinWrite .ce false] ++ T [0x17#8, 0x00#8] [0x0E#8, 0x11#8] ++ [.pinWrite .ce false, .pinWrite .ce true] ++
        T [0x20#8, 0x0B#8] [0x0E#8, 0x00#8], [.ok .unit], ⟨true, false, .rx, 0x0B#8, true, true⟩) := by decide

theorem test_enterRx_last_write_fails :
    seen (exec .enterRx (ready .tx 0x0A#8 false [.ok [0x0E#8, 0x11#8], .err e])) =
      some (T [0x17#8, 0x00#8] [0x0E#8, 0x11#8] ++ [.pinWrite .ce false, .pinWrite .ce true] ++ TErr [0x20#8, 0x0B#8] e,
        [.transportFailure e], ⟨true, false, .tx, 0x0B#8, true, true⟩) := by decide

theorem test_send_from_rx :
    seen (exec (.send [0x01#8]) (ready .rx 0x0B#8 true [.ok [0x0E#8, 0x00#8], .ok [0x0E#8, 0x00#8]])) =
      some ([.pinWrite .ce false] ++ T [0x20#8, 0x0A#8] [0x0E#8, 0x00#8] ++ T [0xA0#8, 0x01#8] [0x0E#8, 0x00#8] ++
        [.pinWrite .ce true], [.ok .unit], ⟨true, false, .tx, 0x0A#8, true, true⟩) := by decide

theorem test_send_33_bytes_faults_before_any_event :
    seen (exec (.send (List.replicate 33 0#8)) (ready .rx 0x0B#8 true [])) =
      some ([], [.fault .payloadTooLong], ⟨true, true, .rx, 0x0B#8, true, true⟩) := by decide

theorem test_waitTxReady_full :
    seen (exec .waitTxReady (ready .tx 0x0A#8 true [.ok [0x0F#8, 0x21#8]])) =
      some (T [0x17#8, 0x00#8] [0x0F#8, 0x21#8], [.wouldBlock], ⟨true, false, .tx, 0x0A#8, true, true⟩) := by decide

theorem test_waitTxReady_tests_maxRt_first :
    seen (exec .waitTxReady (ready .tx 0x0A#8 true [.ok [0x1E#8, 0x11#8], .ok [0x1E#8], .ok [0x1E#8, 0x00#8]])) =
      some (T [0x17#8, 0x00#8] [0x1E#8, 0x11#8] ++ T [0xE1#8] [0x1E#8] ++ T [0x27#8, 0x30#8] [0x1E#8, 0x00#8], [.wouldBlock],
        ⟨true, false, .tx, 0x0A#8, true, true⟩) := by decide

theorem test_waitTxEmpty_lowers_ce :
    seen (exec .waitTxEmpty (ready .tx 0x0A#8 true [.ok [0x2E#8, 0x11#8]])) =
      some (T [0x17#8, 0x00#8] [0x2E#8, 0x11#8] ++ [.pinWrite .ce false], [.ok .unit],
        ⟨true, false, .tx, 0x0A#8, false, true⟩) := by
  decide

theorem test_waitTxEmpty_not_empty :
    seen (exec .waitTxEmpty (ready .tx 0x0A#8 true [.ok [0x0E#8, 0x01#8]])) =
      some (T [0x17#8, 0x00#8] [0x0E#8, 0x01#8], [.wouldBlock], ⟨true, false, .tx, 0x0A#8, true, true⟩) := by decide

theorem test_waitRxReady_answers_the_pipe :
    seen (exec .waitRxReady (ready .rx 0x0B#8 true [.ok [0x44#8, 0x10#8]])) =
      some (T [0x17#8, 0x00#8] [0x44#8, 0x10#8], [.ok (.pipe 2#3)],
        ⟨true, false, .rx, 0x0B#8, true, true⟩) := by decide

theorem test_waitRxReady_from_tx :
    seen (exec .waitRxReady
      (ready .tx 0x0A#8 true [.ok [0x0E#8, 0x11#8], .ok [0x0E#8, 0x00#8], .ok [0x0E#8, 0x11#8]])) =
      some (T [0x17#8, 0x00#8] [0x0E#8, 0x11#8] ++ [.pinWrite .ce false, .pinWrite .ce true] ++
        T [0x20#8, 0x0B#8] [0x0E#8, 0x00#8] ++ T [0x17#8, 0x00#8] [0x0E#8, 0x11#8], [.wouldBlock], ⟨true, false, .rx, 0x0B#8, true, true⟩) := by decide

theorem test_read :
    seen (exec .read (ready .rx 0x0B#8 true [.ok [0x44#8, 0x03#8], .ok [0x44#8, 0x11#8, 0x22#8, 0x33#8]])) =
      some (T [0x60#8, 0x00#8] [0x44#8, 0x03#8] ++ T [0x61#8, 0#8, 0#8, 0#8] [0x44#8, 0x11#8, 0x22#8, 0x33#8],
        [.ok (.payload [0x11#8, 0x22#8, 0x33#8])], ⟨true, false, .rx, 0x0B#8, true, true⟩) := by decide

theorem test_read_width_33_faults :
    seen (exec .read (ready .rx 0x0B#8 true [.ok [0x40#8, 0x21#8]])) =
      some (T [0x60#8, 0x00#8] [0x40#8, 0x21#8], [.fault .payloadTooLong],
        ⟨true, true, .rx, 0x0B#8, true, true⟩) := by decide

theorem test_clearInterrupts :
    seen (exec .clearInterrupts (ready .rx 0x0B#8 true [.ok [0x4E#8, 0x00#8]])) =
      some (T [0x27#8, 0x70#8] [0x4E#8, 0x00#8], [.ok .unit], ⟨true, false, .rx, 0x0B#8, true, true⟩) := by decide

/-! ## Construction and the host port (vectors V5, P4) -/

/-- P4: a construction with a batch of four. -/
theorem test_construct_runs_its_batch :
    seen (exec (.construct [.writeRegister 5#5 1 [0x4C#8], .updateRegister 4#5 1 (toConst [0x1F#8]),
        .updateConfig ⟨[], [.setField 0 ⟨2, 2⟩ 1#8], .const .unit⟩, .updateConfig powerUp])
      (fresh [.ok [0x0E#8, 0x03#8], .ok [0x0E#8, 0x00#8], .ok [0x0E#8, 0x03#8], .ok [0x0E#8, 0x00#8], .ok [0x0E#8, 0x00#8],
        .ok [0x0E#8, 0x00#8]])) =
      some ([.pinWrite .ce false, .pinWrite .csn true] ++ T [0x03#8, 0x00#8] [0x0E#8, 0x03#8] ++
        T [0x25#8, 0x4C#8] [0x0E#8, 0x00#8] ++ T [0x04#8, 0x00#8] [0x0E#8, 0x03#8] ++ T [0x24#8, 0x1F#8] [0x0E#8, 0x00#8] ++
        T [0x20#8, 0x0C#8] [0x0E#8, 0x00#8] ++ T [0x20#8, 0x0E#8] [0x0E#8, 0x00#8],
        [.ok .unit], ⟨true, false, .standby, 0x0E#8, false, true⟩) := by decide

theorem test_construct_not_connected :
    seenFailed (exec (.construct []) (fresh [.ok [0xFF#8, 0xFF#8]])) =
      some ([.pinWrite .ce false, .pinWrite .csn true] ++ T [0x03#8, 0x00#8] [0xFF#8, 0xFF#8], [.notConnected], false, false,
        false, true) := by decide

/-- V5: the host port's refusals. -/
theorem test_host_port :
    seen (exec .ceEnable (fresh [])) = some ([], [.refused .notLive], ⟨false, false, .standby, 0x08#8, false, true⟩) ∧
    seen (exec (.readRegister 7#5 1) faulted) = some ([], [.refused .notLive], ⟨true, true, .rx, 0x0B#8, true, true⟩) ∧
    seen (step ((fresh []).setRequests [⟨.op, [17#8]⟩])) =
      some ([], [.refused .unknownOperation], ⟨false, false, .standby, 0x08#8, false, true⟩) := by decide

theorem test_construct_clears_a_fault :
    seen (exec (.construct []) { faulted with exchAnswers := [.ok [0x0E#8, 0x03#8]] }) =
      some ([.pinWrite .ce false, .pinWrite .csn true] ++ T [0x03#8, 0x00#8] [0x0E#8, 0x03#8], [.ok .unit],
        ⟨true, false, .standby, 0x08#8, false, true⟩) := by decide

/-- R8, R112: the transition of `test_enterRx_from_standby` on a block with other parameters. -/
theorem test_enterRx_with_other_parameters :
    seen (exec .enterRx { ready .tx 0x0A#8 false [.ok [0x0E#8, 0x01#8], .ok [0x0E#8, 0x00#8]] with params := other }) =
      some (T [0x00#8, 0x00#8] [0x0E#8, 0x01#8] ++ [.pinWrite .ce false, .pinWrite .ce true] ++
        T [0x31#8, 0x8A#8] [0x0E#8, 0x00#8], [.ok .unit], ⟨true, false, .rx, 0x8A#8, true, true⟩) := by decide

/-- R9, D31: a block over another type of errors hands one on verbatim. -/
theorem test_error_of_another_type :
    (match execOf .wireFlushTx
        { (State.resetWith dflt : State String) with
          live := true, exchAnswers := [.err "bus"], lineAnswers := [true, true] } with
      | .next t => t.outcomes
      | _ => []) = [.transportFailure "bus"] := by decide

/-- A table word placed with `withFetchWord` is what the next step runs (log entry 5). -/
theorem test_withFetchWord :
    step ((ready .rx 0x0B#8 true []).withFetchWord 8 0b00001001) = exec .enterRx (ready .rx 0x0B#8 true []) := by rfl

/-! ## Witnesses

For each statement with hypotheses, a concrete state and operands that meet them, clause by clause. -/

theorem witness_DecodeInvertsEncode :
    (Instr.wireWriteRegister 0x1F#5 5 [1#8, 2#8, 3#8, 4#8, 5#8]).wf = true ∧ (Instr.wireReadRxPayload 32).wf = true ∧
    (Instr.construct [.writeRegister 5#5 1 [0x4C#8], .updateRegister 4#5 5 same, .updateConfig powerUp,
      .sendCommand (.writeTxPayload [])]).wf = true := by decide

theorem witness_FrameLengthIsOnePlusOperand :
    Command.wf (.readRegister 0x17#5 5) = true ∧ Command.wf (.readRxPayload 0) = true := by decide

theorem witness_FrameDecoderAcceptsExactly : decodeFrame dflt [0x61#8] = some (.readRxPayload 0) := by decide

/-- The hypothesis of the statements over all valid parameters, by the defaults and by another record. -/
theorem witness_valid_parameters : dflt.Valid ∧ other.Valid := by
  simp only [Config.Params.Valid, Config.fieldSpans]; decide

theorem witness_FieldReadWriteLaws :
    ∃ (x y : Byte) (hi lo hi' lo' : Nat), lo ≤ hi ∧ hi ≤ 7 ∧ x.toNat < 2 ^ (hi - lo + 1) ∧ lo' ≤ hi' ∧ hi' ≤ 7 ∧
      (hi < lo' ∨ hi' < lo) ∧ y = 1#8 := ⟨7#8, 1#8, 7, 5, 4, 4, by decide⟩

theorem witness_MutatorsExpressEveryFunction :
    widthOk 1 = true ∧ widthOk 5 = true ∧ Mutator.wf 1 powerUp = true ∧
    ∀ v : List Byte, v.length = 5 → ((fun v : List Byte => (v.reverse, MutResult.unit)) v).1.length = 5 :=
  ⟨by decide, by decide, by decide, fun v h => by simpa using h⟩

theorem witness_HostPortRefusals :
    ((∀ batch, Instr.ceEnable ≠ .construct batch) ∧ (State.reset.live = false ∨ State.reset.fault = true)) ∧
    (faulted.live = false ∨ faulted.fault = true) ∧
    (∃ s : State, s.requests = ⟨.op, 17#8 :: []⟩ :: [] ∧ 16 < (17#8 : Byte).toNat) :=
  ⟨⟨fun _ h => (by cases h), .inl rfl⟩, .inr rfl, faulted.setRequests [⟨.op, [17#8]⟩], rfl, by decide⟩

theorem witness_StepServesTheNextRequest :
    decode faulted.params ⟨.op, [9#8]⟩ = .ok .enterRx ∧ decode faulted.params ⟨.op, [9#8, 0#8]⟩ = .error .malformedOperands ∧
    decode faulted.params ⟨.wire, [0xFF#8]⟩ = .error .rejectedFrame ∧
    (faulted.setRequests [⟨.op, [9#8]⟩]).requests = [⟨.op, [9#8]⟩] ∧ faulted.requests = [] := by decide

/-- The most an operation does: `read` from Standby with `PRIM_RX` set makes its 5 transactions and its
3 CE writes. -/
theorem witness_AtMostFiveTransactions :
    ∃ t, exec .read (ready .standby 0x0B#8 false
        [.ok [0x0E#8, 0#8], .ok [0x0E#8, 0x11#8], .ok [0x0E#8, 0#8], .ok [0x40#8, 0#8], .ok [0x40#8]]) = .next t ∧
      exchanges t.trace = 5 ∧ t.trace.countP Event.isCeWrite = 3 := ⟨_, rfl, by decide⟩

theorem witness_OpcodeOnlyCommandsComplete :
    ∃ (s : State) (st : Byte), Ready s ∧ Answers s 2 [.ok [st]] :=
  ⟨ready .rx 0x0B#8 true [.ok [0xFF#8]], 0xFF#8, ⟨rfl, rfl⟩, rfl, by decide⟩

theorem witness_RegisterCommandsComplete :
    ∃ (s : State) (st : Byte) (data v : List Byte), data.length = 5 ∧ v.length = 5 ∧ Ready s ∧ Answers s 2 [.ok (st :: data)] :=
  ⟨ready .tx 0x0A#8 false [.ok [0x0E#8, 1#8, 2#8, 3#8, 4#8, 5#8]], 0x0E#8, [1#8, 2#8, 3#8, 4#8, 5#8],
    List.replicate 5 0#8, by decide, by decide, ⟨rfl, rfl⟩, rfl, by decide⟩

theorem witness_PayloadCommandsComplete :
    (∃ (s : State) (st : Byte), ([] : List Byte).length ≤ 32 ∧ Ready s ∧ Answers s 2 [.ok (st :: [])]) ∧
    (∃ (s : State) (d : List Byte) (st : Byte) (data : List Byte), d.length = 32 ∧ data.length = d.length ∧ Ready s ∧
      Answers s 2 [.ok (st :: data)]) :=
  ⟨⟨ready .tx 0x0A#8 false [.ok [0x0E#8]], 0x0E#8, by decide, ⟨rfl, rfl⟩, rfl, by decide⟩,
    ready .tx 0x0A#8 false [.ok (0x0E#8 :: List.replicate 32 0#8)], List.replicate 32 1#8, 0x0E#8, List.replicate 32 0#8,
    by decide, by decide, ⟨rfl, rfl⟩, rfl, by decide⟩

theorem witness_OneByteCommandsComplete :
    ∃ (s : State) (st x : Byte), Ready s ∧ Answers s 2 [.ok [st, x]] :=
  ⟨ready .rx 0x0B#8 true [.ok [0x44#8, 0xFF#8]], 0x44#8, 0xFF#8, ⟨rfl, rfl⟩, rfl, by decide⟩

theorem witness_TransactionEndsAsTheRuleSays :
    (Command.wf (.readRxPayload 33) = true ∧ 33 < frameLen (.readRxPayload 33)) ∧
    (Command.wf (.readRxPayload 32) = true ∧ frameLen (.readRxPayload 32) ≤ 33) ∧
    (∃ s : State, Ready s ∧ ∃ st : Byte, 1 + ([] : List Byte).length = frameLen .flushTx ∧ Answers s 2 [.ok [st]]) ∧
    (∃ s : State, Ready s ∧ Answers s 2 [.err e]) ∧
    (∃ s : State, Ready s ∧ s.lineAnswers.head? = some false) ∧
    (∃ s : State, Ready s ∧ s.lineAnswers.take 2 = [true, false] ∧ s.exchAnswers.head? = some (.ok [0x0E#8]) ∧
      ([0x0E#8] : List Byte).length = frameLen .flushTx) :=
  ⟨by decide, by decide, ⟨ready .tx 0x0A#8 false [.ok [0x0E#8]], ⟨rfl, rfl⟩, 0x0E#8, rfl, rfl, by decide⟩,
    ⟨ready .tx 0x0A#8 false [.err e], ⟨rfl, rfl⟩, rfl, by decide⟩, ⟨onLines [false] [], ⟨rfl, rfl⟩, rfl⟩,
    onLines [true, false] [.ok [0x0E#8]], ⟨rfl, rfl⟩, rfl, rfl, rfl⟩

/-- (The failing line writes of this and the next statement are those of the one above.) -/
theorem witness_WriteRegisterCompletes :
    (∃ (s : State) (v : List Byte) (st : Byte) (data : List Byte), v.length = 1 ∧ Ready s ∧ data.length = 1 ∧
      Answers s 2 [.ok (st :: data)]) ∧ (∃ s : State, Ready s ∧ Answers s 2 [.err e]) :=
  ⟨⟨ready .tx 0x0A#8 false [.ok [0x0E#8, 0#8]], [0x0B#8], 0x0E#8, [0#8], rfl, ⟨rfl, rfl⟩, rfl, rfl, by decide⟩,
    ready .tx 0x0A#8 false [.err e], ⟨rfl, rfl⟩, rfl, by decide⟩

theorem witness_ReadRegisterCompletes :
    (∃ (s : State) (st : Byte) (data : List Byte), Ready s ∧ data.length = 5 ∧ Answers s 2 [.ok (st :: data)]) ∧
    (∃ s : State, Ready s ∧ Answers s 2 [.err e]) :=
  ⟨⟨ready .rx 0x0B#8 true [.ok [0x0E#8, 1#8, 2#8, 3#8, 4#8, 5#8]], 0x0E#8, [1#8, 2#8, 3#8, 4#8, 5#8], ⟨rfl, rfl⟩, rfl, rfl,
    by decide⟩, ready .tx 0x0A#8 false [.err e], ⟨rfl, rfl⟩, rfl, by decide⟩

/-- The mutator `v => ([0x4C], ())` on the registers at 0 and 5, for a value it changes and one it does not
(the parameters of all these states are the defaults). -/
theorem witness_UpdateRegisterCompletes :
    (toConst [0x4C#8]).wf 1 = true ∧ (0#5 : RegAddr) = dflt.ADDR_CONFIG ∧ (5#5 : RegAddr) ≠ dflt.ADDR_CONFIG ∧
    (∃ s : State, Ready s ∧ Answers s 2 [.err e]) ∧
    (∃ s : State, Ready s ∧ Answers s 2 [.ok [0x0E#8, 0x4C#8]] ∧ (evalMutator (toConst [0x4C#8]) [0x4C#8]).1 = [0x4C#8]) ∧
    (∃ s : State, Ready s ∧ Answers s 4 [.ok [0x0E#8, 2#8], .ok [0x0E#8, 0#8]] ∧
      (evalMutator (toConst [0x4C#8]) [2#8]).1 ≠ [2#8]) ∧
    (∃ s : State, Ready s ∧ Answers s 4 [.ok [0x0E#8, 2#8], .err e]) :=
  ⟨by decide, rfl, by decide, ⟨ready .tx 0x0A#8 false [.err e], ⟨rfl, rfl⟩, rfl, by decide⟩,
    ⟨ready .tx 0x0A#8 false [.ok [0x0E#8, 0x4C#8]], ⟨rfl, rfl⟩, ⟨rfl, by decide⟩, by decide⟩,
    ⟨ready .tx 0x0A#8 false [.ok [0x0E#8, 2#8], .ok [0x0E#8, 0#8]], ⟨rfl, rfl⟩, ⟨rfl, by decide⟩, by decide⟩,
    ready .tx 0x0A#8 false [.ok [0x0E#8, 2#8], .err e], ⟨rfl, rfl⟩, rfl, by decide⟩

theorem witness_UpdateConfigCompletes :
    powerUp.wf 1 = true ∧
    (∃ s : State, Ready s ∧ (evalMutatorByte powerUp s.cfg).1 = s.cfg) ∧
    (∃ s : State, Ready s ∧ Answers s 2 [.ok [0x0E#8, 0#8]] ∧ (evalMutatorByte powerUp s.cfg).1 ≠ s.cfg) ∧
    (∃ s : State, Ready s ∧ Answers s 2 [.err e] ∧ (evalMutatorByte powerUp s.cfg).1 ≠ s.cfg) :=
  ⟨by decide, ⟨ready .tx 0x0A#8 false [], ⟨rfl, rfl⟩, by decide⟩,
    ⟨ready .standby 0x08#8 false [.ok [0x0E#8, 0#8]], ⟨rfl, rfl⟩, ⟨rfl, by decide⟩, by decide⟩,
    ready .standby 0x08#8 false [.err e], ⟨rfl, rfl⟩, ⟨rfl, by decide⟩, by decide⟩

theorem witness_WritesOnlyWhatChanged :
    (∃ s t events, Ready s ∧ exec (.updateConfig powerUp) s = .next t ∧ t.trace = s.trace ++ events ∧ t.fault = false) ∧
    (∃ s t events, Ready s ∧ exec (.updateRegister 5#5 1 same) s = .next t ∧ t.trace = s.trace ++ events ∧ t.fault = false ∧
      Answers s 2 [.ok (0x0E#8 :: [0x4C#8])]) :=
  ⟨⟨ready .standby 0x08#8 false [.ok [0x0E#8, 0#8]], _, T [0x20#8, 0x0A#8] [0x0E#8, 0#8], ⟨rfl, rfl⟩, rfl, by decide, by decide⟩,
    ready .tx 0x0A#8 false [.ok [0x0E#8, 0x4C#8]], _, T [0x05#8, 0#8] [0x0E#8, 0x4C#8], ⟨rfl, rfl⟩, rfl, by decide, by decide, rfl,
    by decide⟩

theorem witness_IsConnectedCompletes :
    (∃ (s : State) (st v : Byte), Ready s ∧ Answers s 2 [.ok [st, v]]) ∧ (∃ s : State, Ready s ∧ Answers s 2 [.err e]) :=
  ⟨⟨ready .tx 0x0A#8 false [.ok [0x0E#8, 4#8]], 0x0E#8, 4#8, ⟨rfl, rfl⟩, rfl, by decide⟩,
    ready .tx 0x0A#8 false [.err e], ⟨rfl, rfl⟩, rfl, by decide⟩

theorem witness_CeLineOperationsComplete :
    (∃ s : State, Ready s ∧ s.lineAnswers = true :: []) ∧ (∃ s : State, Ready s ∧ s.lineAnswers = false :: []) :=
  ⟨⟨onLines [true] [], ⟨rfl, rfl⟩, rfl⟩, onLines [false] [], ⟨rfl, rfl⟩, rfl⟩

theorem witness_ModeTransitionsComplete :
    (∃ s : State, Ready s ∧ s.mode = .tx) ∧ (∃ s : State, Ready s ∧ s.mode = .rx) ∧
    (∃ (s : State) (rx0 : List Byte), Ready s ∧ rx0.length = 2 ∧ s.mode ≠ .tx ∧ Answers s (txLines s rx0) (txAnswers s rx0)) ∧
    (∃ (s : State) (rx0 rx1 : List Byte) (st f : Byte), Ready s ∧ rx0.length = 2 ∧ rx1.length = 2 ∧ s.mode ≠ .rx ∧
      maxRt s.params st = false ∧ txEmpty s.params f = true ∧ Answers s (rxLines s rx0 rx1) (rxAnswers s rx0 [st, f] rx1)) :=
  ⟨⟨ready .tx 0x0A#8 true [], ⟨rfl, rfl⟩, rfl⟩, ⟨ready .rx 0x0B#8 true [], ⟨rfl, rfl⟩, rfl⟩,
    ⟨ready .rx 0x0B#8 true [.ok [0x0E#8, 0#8]], [0x0E#8, 0#8], ⟨rfl, rfl⟩, rfl, by decide, rfl, by decide⟩,
    ready .standby 0x0A#8 false [.ok [0x2E#8, 0x11#8], .ok [0x0E#8, 0#8]], [0#8, 0#8], [0x0E#8, 0#8], 0x2E#8, 0x11#8,
    ⟨rfl, rfl⟩, rfl, rfl, by decide, by decide, by decide, rfl, by decide⟩

theorem witness_TransitionsEndEarly :
    (∃ s : State, Ready s ∧ s.mode ≠ .tx ∧ txCfg s ≠ s.cfg ∧ Answers s 3 [.err e]) ∧
    (∃ s : State, Ready s ∧ s.mode ≠ .tx ∧ s.mode ≠ .rx ∧ txCfg s ≠ s.cfg ∧ Answers s 3 [.err e]) ∧
    (∃ (s : State) (rx0 : List Byte) (st f : Byte), Ready s ∧ s.mode ≠ .rx ∧ rx0.length = 2 ∧ maxRt s.params st = false ∧
      txEmpty s.params f = false ∧ Answers s (txLines s rx0 + 2) (txAnswers s rx0 ++ [.ok [st, f]])) ∧
    (∃ (s : State) (rx0 : List Byte), Ready s ∧ s.mode ≠ .rx ∧ rx0.length = 2 ∧
      Answers s (txLines s rx0 + 2) (txAnswers s rx0 ++ [.err e])) ∧
    (∃ (s : State) (rx0 : List Byte) (st f : Byte), Ready s ∧ s.mode ≠ .rx ∧ rx0.length = 2 ∧ maxRt s.params st = false ∧
      txEmpty s.params f = true ∧ rxCfg s ≠ txCfg s ∧ Answers s (txLines s rx0 + 6) (txAnswers s rx0 ++ [.ok [st, f], .err e])) :=
  ⟨⟨ready .rx 0x0B#8 true [.err e], ⟨rfl, rfl⟩, by decide, by decide, rfl, by decide⟩,
    ⟨ready .standby 0x0B#8 false [.err e], ⟨rfl, rfl⟩, by decide, by decide, by decide, rfl, by decide⟩,
    ⟨ready .tx 0x0A#8 true [.ok [0x0E#8, 0x01#8]], [0#8, 0#8], 0x0E#8, 0x01#8, ⟨rfl, rfl⟩, by decide, rfl, by decide,
      by decide, rfl, by decide⟩,
    ⟨ready .standby 0x0A#8 false [.err e], [0#8, 0#8], ⟨rfl, rfl⟩, by decide, rfl, rfl, by decide⟩,
    ready .tx 0x0A#8 false [.ok [0x0E#8, 0x11#8], .err e], [0#8, 0#8], 0x0E#8, 0x11#8, ⟨rfl, rfl⟩, by decide, rfl, by decide,
    by decide, by decide, rfl, by decide⟩

theorem witness_FailedTransitionsKeepMode :
    (∃ s t o, exec .enterTx s = .next t ∧ t.outcomes = s.outcomes ++ [o] ∧ o ≠ .ok .unit) ∧
    (∃ s t o, exec .enterRx s = .next t ∧ t.outcomes = s.outcomes ++ [o] ∧ o ≠ .ok .unit) :=
  ⟨⟨ready .rx 0x0B#8 true [.err e], _, .transportFailure e, rfl, by decide, by decide⟩,
    ready .tx 0x0A#8 true [.ok [0x0E#8, 0x01#8]], _, .wouldBlock, rfl, by decide, by decide⟩

theorem witness_FailedConfigWriteIsNotRepeated :
    ∃ s : State, Ready s ∧ s.mode ≠ .tx ∧ txCfg s ≠ s.cfg ∧ Answers s 4 [.err e] :=
  ⟨ready .rx 0x0B#8 true [.err e], ⟨rfl, rfl⟩, by decide, by decide, rfl, by decide⟩

theorem witness_SendCompletes :
    32 < (List.replicate 33 0#8).length ∧
    (∃ (s : State) (packet rx0 rx : List Byte), Ready s ∧ packet.length = 32 ∧ rx0.length = 2 ∧ rx.length = 1 + packet.length ∧
      Answers s (txLines s rx0 + 3) (txAnswers s rx0 ++ [.ok rx])) ∧
    (∃ (s : State) (rx0 : List Byte), Ready s ∧ rx0.length = 2 ∧ Answers s (txLines s rx0 + 2) (txAnswers s rx0 ++ [.err e])) ∧
    (∃ s : State, Ready s ∧ s.mode ≠ .tx ∧ txCfg s ≠ s.cfg ∧ Answers s 3 [.err e]) :=
  ⟨by decide,
    ⟨ready .rx 0x0B#8 true [.ok [0x0E#8, 0#8], .ok (List.replicate 33 0#8)], List.replicate 32 1#8, [0x0E#8, 0#8],
      List.replicate 33 0#8, ⟨rfl, rfl⟩, by decide, rfl, by decide, rfl, by decide⟩,
    ⟨ready .tx 0x0A#8 false [.err e], [0#8, 0#8], ⟨rfl, rfl⟩, rfl, rfl, by decide⟩,
    ready .rx 0x0B#8 true [.err e], ⟨rfl, rfl⟩, by decide, by decide, rfl, by decide⟩

theorem witness_WaitTxReadyCompletes :
    (∃ (s : State) (rx0 : List Byte) (st f : Byte), Ready s ∧ rx0.length = 2 ∧ maxRt s.params st = false ∧ txFull s.params f = true ∧
      Answers s (txLines s rx0 + 2) (txAnswers s rx0 ++ [.ok [st, f]])) ∧
    (∃ (s : State) (rx0 : List Byte), Ready s ∧ rx0.length = 2 ∧ Answers s (txLines s rx0 + 2) (txAnswers s rx0 ++ [.err e])) :=
  ⟨⟨ready .tx 0x0A#8 true [.ok [0x0F#8, 0x21#8]], [0#8, 0#8], 0x0F#8, 0x21#8, ⟨rfl, rfl⟩, rfl, by decide, by decide, rfl,
    by decide⟩, ready .tx 0x0A#8 true [.err e], [0#8, 0#8], ⟨rfl, rfl⟩, rfl, rfl, by decide⟩

theorem witness_WaitTxEmptyCompletes :
    (∃ (s : State) (rx0 : List Byte) (st f : Byte), Ready s ∧ rx0.length = 2 ∧ maxRt s.params st = false ∧ txEmpty s.params f = true ∧
      Answers s (txLines s rx0 + 3) (txAnswers s rx0 ++ [.ok [st, f]])) ∧
    (∃ (s : State) (rx0 : List Byte) (st f : Byte), Ready s ∧ rx0.length = 2 ∧ maxRt s.params st = false ∧ txEmpty s.params f = false ∧
      Answers s (txLines s rx0 + 2) (txAnswers s rx0 ++ [.ok [st, f]])) :=
  ⟨⟨ready .tx 0x0A#8 true [.ok [0x0E#8, 0x31#8]], [0#8, 0#8], 0x0E#8, 0x31#8, ⟨rfl, rfl⟩, rfl, by decide, by decide, rfl,
    by decide⟩, ready .tx 0x0A#8 true [.ok [0x0F#8, 0x21#8]], [0#8, 0#8], 0x0F#8, 0x21#8, ⟨rfl, rfl⟩, rfl, by decide,
    by decide, rfl, by decide⟩

theorem witness_DiscardStepRuns :
    (∃ (s : State) (rx0 : List Byte) (st f : Byte), s.mode ≠ .rx ∧ Ready s ∧ rx0.length = 2 ∧ maxRt s.params st = true ∧
      Answers s (txLines s rx0 + 6) (txAnswers s rx0 ++ [.ok [st, f], .ok [0x1E#8], .ok [0x1E#8, 0#8]])) ∧
    (∃ (s : State) (rx0 : List Byte) (st f : Byte), Ready s ∧ rx0.length = 2 ∧ maxRt s.params st = true ∧
      Answers s (txLines s rx0 + 4) (txAnswers s rx0 ++ [.ok [st, f], .err e])) ∧
    (∃ (s : State) (rx0 : List Byte) (st f : Byte), Ready s ∧ rx0.length = 2 ∧ maxRt s.params st = true ∧
      Answers s (txLines s rx0 + 6) (txAnswers s rx0 ++ [.ok [st, f], .ok [0x1E#8], .err e])) :=
  ⟨⟨ready .tx 0x0A#8 true [.ok [0x1E#8, 0x11#8], .ok [0x1E#8], .ok [0x1E#8, 0#8]], [0#8, 0#8], 0x1E#8, 0x11#8, by decide,
      ⟨rfl, rfl⟩, rfl, by decide, rfl, by decide⟩,
    ⟨ready .rx 0x0B#8 true [.ok [0x0E#8, 0#8], .ok [0x1E#8, 0x01#8], .err e], [0x0E#8, 0#8], 0x1E#8, 0x01#8, ⟨rfl, rfl⟩, rfl,
      by decide, rfl, by decide⟩,
    ready .tx 0x0A#8 true [.ok [0x1E#8, 0x01#8], .ok [0x1E#8], .err e], [0#8, 0#8], 0x1E#8, 0x01#8, ⟨rfl, rfl⟩, rfl,
    by decide, rfl, by decide⟩

theorem witness_WaitRxReadyCompletes :
    (∃ (s : State) (rx0 rx1 : List Byte) (st0 f0 st f : Byte), s.mode = .rx ∧ Ready s ∧ rx0.length = 2 ∧ rx1.length = 2 ∧
      maxRt s.params st0 = false ∧ txEmpty s.params f0 = true ∧ rxEmpty s.params f = false ∧
      Answers s (rxLines s rx0 rx1 + 2) (rxAnswers s rx0 [st0, f0] rx1 ++ [.ok [st, f]])) ∧
    (∃ (s : State) (rx0 rx1 : List Byte) (st0 f0 st f : Byte), s.mode = .tx ∧ Ready s ∧ rx0.length = 2 ∧ rx1.length = 2 ∧
      maxRt s.params st0 = false ∧ txEmpty s.params f0 = true ∧ rxEmpty s.params f = true ∧
      Answers s (rxLines s rx0 rx1 + 2) (rxAnswers s rx0 [st0, f0] rx1 ++ [.ok [st, f]])) :=
  ⟨⟨ready .rx 0x0B#8 true [.ok [0x4E#8, 0x10#8]], [0#8, 0#8], [0#8, 0#8], 0x0E#8, 0x11#8, 0x4E#8, 0x10#8, rfl, ⟨rfl, rfl⟩,
      rfl, rfl, by decide, by decide, by decide, rfl, by decide⟩,
    ready .tx 0x0A#8 true [.ok [0x0E#8, 0x11#8], .ok [0x0E#8, 0#8], .ok [0x0E#8, 0x11#8]], [0#8, 0#8], [0x0E#8, 0#8], 0x0E#8,
    0x11#8, 0x0E#8, 0x11#8, rfl, ⟨rfl, rfl⟩, rfl, rfl, by decide, by decide, by decide, rfl, by decide⟩

theorem witness_ReadCompletes :
    (∃ (s : State) (rx0 rx1 : List Byte) (st0 f0 st width st1 : Byte) (payload : List Byte), Ready s ∧ rx0.length = 2 ∧
      rx1.length = 2 ∧ maxRt s.params st0 = false ∧ txEmpty s.params f0 = true ∧ width.toNat = 32 ∧ payload.length = width.toNat ∧
      Answers s (rxLines s rx0 rx1 + 4) (rxAnswers s rx0 [st0, f0] rx1 ++ [.ok [st, width], .ok (st1 :: payload)])) ∧
    (∃ (s : State) (rx0 rx1 : List Byte) (st0 f0 st width : Byte), Ready s ∧ rx0.length = 2 ∧ rx1.length = 2 ∧
      maxRt s.params st0 = false ∧ txEmpty s.params f0 = true ∧ width.toNat = 33 ∧
      Answers s (rxLines s rx0 rx1 + 2) (rxAnswers s rx0 [st0, f0] rx1 ++ [.ok [st, width]])) :=
  ⟨⟨ready .rx 0x0B#8 true [.ok [0x40#8, 32#8], .ok (0x40#8 :: List.replicate 32 1#8)], [0#8, 0#8], [0#8, 0#8], 0x0E#8, 0x11#8,
      0x40#8, 32#8, 0x40#8, List.replicate 32 1#8, ⟨rfl, rfl⟩, rfl, rfl, by decide, by decide, by decide, by decide, rfl,
      by decide⟩,
    ready .rx 0x0B#8 true [.ok [0x40#8, 33#8]], [0#8, 0#8], [0#8, 0#8], 0x0E#8, 0x11#8, 0x40#8, 33#8, ⟨rfl, rfl⟩, rfl, rfl,
    by decide, by decide, by decide, rfl, by decide⟩

theorem witness_ClearInterruptsCompletes :
    (∃ (s : State) (rx : List Byte), Ready s ∧ rx.length = 2 ∧ Answers s 2 [.ok rx]) ∧
    (∃ s : State, Ready s ∧ Answers s 2 [.err e]) :=
  ⟨⟨ready .standby 0x08#8 false [.ok [0x4E#8, 0#8]], [0x4E#8, 0#8], ⟨rfl, rfl⟩, rfl, rfl, by decide⟩,
    ready .tx 0x0A#8 false [.err e], ⟨rfl, rfl⟩, rfl, by decide⟩

theorem witness_ConstructCompletes :
    ∃ (s : State) (st v : Byte), v.toNat ≤ 3 ∧ v = 3#8 ∧ Answers s 4 [.ok [st, v]] :=
  ⟨fresh [.ok [0x0E#8, 3#8]], 0x0E#8, 3#8, by decide, rfl, rfl, by decide⟩

/-- A batch with every kind of element, the updates both with and without a write. -/
theorem witness_ConstructRunsItsBatch :
    ∃ (s : State) (st v : Byte) (batch : List BatchOp) (made : List (Command × List Byte)) (cfg : Byte), v.toNat ≤ 3 ∧
      batch.length = 6 ∧ BatchMakes s.params (initialCfg s.params) batch made cfg ∧ cfg = 0x0A#8 ∧
      Answers s (4 + 2 * made.length) (.ok [st, v] :: made.map fun p => .ok p.2) := by
  refine ⟨fresh [.ok [0x0E#8, 0#8], .ok [0x0E#8], .ok [0x0E#8, 0#8], .ok [0x0E#8, 0x4C#8], .ok [0x0E#8, 3#8],
      .ok [0x0E#8, 0#8], .ok [0x0E#8, 0#8]], 0x0E#8, 0#8,
    [.sendCommand .flushRx, .writeRegister 5#5 1 [0x4C#8], .updateRegister 5#5 1 (toConst [0x4C#8]),
      .updateRegister 4#5 1 (toConst [0x1F#8]), .updateConfig same, .updateConfig powerUp], _, _, by decide, rfl,
    .send .flushRx [0x0E#8] rfl (by decide) rfl <| .write 5#5 1 [0x4C#8] [0x0E#8, 0#8] (by decide) rfl <|
      .updateSame 5#5 1 (toConst [0x4C#8]) 0x0E#8 [0x4C#8] (by decide) (by decide) rfl (by decide) <|
      .updateWrites 4#5 1 (toConst [0x1F#8]) 0x0E#8 [3#8] [0x0E#8, 0#8] (by decide) (by decide) rfl (by decide) rfl <|
      .configSame same (by decide) (by decide) <|
      .configWrites powerUp [0x0E#8, 0#8] (by decide) (by decide) rfl (.nil _), by decide, rfl, by decide⟩

theorem witness_FailedConstructionIsNotLive :
    (∃ s t, exec (.construct []) s = .next t ∧ t.outcomes = s.outcomes ++ [.notConnected]) ∧
    (∃ (s : State) (st v : Byte), 3 < v.toNat ∧ v = 4#8 ∧ Answers s 4 [.ok [st, v]]) ∧
    (∃ s : State, Answers s 4 [.err e]) ∧ (∃ s : State, s.lineAnswers = false :: []) :=
  ⟨⟨fresh [.ok [0xFF#8, 0xFF#8]], _, rfl, by decide⟩, ⟨fresh [.ok [0x0E#8, 4#8]], 0x0E#8, 4#8, by decide, rfl, rfl, by decide⟩,
    ⟨fresh [.err e], rfl, by decide⟩, onLines [false] [], rfl⟩

/-- A block that has faulted and one never constructed, with the same environment. -/
theorem witness_ConstructIgnoresThePast :
    ∃ s s' t t', s.live ≠ s'.live ∧ s.fault ≠ s'.fault ∧ s.params = s'.params ∧ s.exchAnswers = s'.exchAnswers ∧ s.lineAnswers = s'.lineAnswers ∧
      s.draws = s'.draws ∧ exec (.construct []) s = .next t ∧ exec (.construct []) s' = .next t' :=
  ⟨faulted, fresh [], _, _, by decide, by decide, rfl, rfl, rfl, rfl, rfl, rfl⟩

theorem witness_FaultIsSticky :
    (∃ s t, exec .ceEnable s = .next t ∧ t.outcomes = s.outcomes ++ [.fault (.lineWriteFailed .ce)]) ∧
    (∃ s t, exec (.construct []) s = .next t ∧ t.outcomes = s.outcomes ++ [.fault (.lineWriteFailed .ce)]) :=
  ⟨⟨onLines [false] [], _, rfl, by decide⟩, onLines [false] [], _, rfl, by decide⟩

theorem witness_TransactionFrame :
    ∃ s t, Ready s ∧ exec .wireFlushTx s = .next t ∧ t.outcomes = s.outcomes ++ [.ok (.command 0x0E#8 .unit)] :=
  ⟨ready .tx 0x0A#8 false [.ok [0x0E#8]], _, ⟨rfl, rfl⟩, rfl, by decide⟩

theorem witness_ReadModifyWriteFrame :
    (∃ s t, Ready s ∧ exec (.updateRegister 5#5 1 same) s = .next t ∧ t.outcomes = s.outcomes ++ [.ok (.mutator .unit)]) ∧
    (∃ s t, Ready s ∧ exec (.updateConfig powerUp) s = .next t ∧ t.outcomes = s.outcomes ++ [.ok (.mutator .unit)]) :=
  ⟨⟨ready .tx 0x0A#8 false [.ok [0x0E#8, 0x4C#8]], _, ⟨rfl, rfl⟩, rfl, by decide⟩,
    ready .standby 0x08#8 false [.ok [0x0E#8, 0#8]], _, ⟨rfl, rfl⟩, rfl, by decide⟩

theorem witness_ModeMachineFrame :
    ∃ s t, Ready s ∧ exec .enterTx s = .next t ∧ t.outcomes = s.outcomes ++ [.ok .unit] ∧ t.cfg ≠ s.cfg :=
  ⟨ready .rx 0x0B#8 true [.ok [0x0E#8, 0#8]], _, ⟨rfl, rfl⟩, rfl, by decide, by decide⟩

theorem witness_OnlyTransactionsTouchTheBuffer :
    ∃ s t events, (∀ batch, Instr.ceEnable ≠ .construct batch) ∧ exec .ceEnable s = .next t ∧
      t.trace = s.trace ++ events ∧ events = [.pinWrite .ce true] ∧ ∀ b, .pinWrite .csn b ∉ events :=
  ⟨onLines [true] [], _, [.pinWrite .ce true], fun _ h => (by cases h), rfl, by decide, rfl, by decide⟩

theorem witness_BusErrorsAreNotMasked :
    (∃ s t events, exec .enterTx s = .next t ∧ t.outcomes = s.outcomes ++ [.transportFailure e] ∧ t.trace = s.trace ++ events ∧
      .exchange [0x20#8, 0x0A#8] (.err e) ∈ events) ∧
    (∃ s t events, exec .wireFlushTx s = .next t ∧ t.outcomes = s.outcomes ++ [.fault (.lineWriteFailed .csn)] ∧
      t.trace = s.trace ++ events ∧ .exchange [0xE1#8] (.err e) ∈ events) :=
  ⟨⟨ready .rx 0x0B#8 true [.err e], _, .pinWrite .ce false :: TErr [0x20#8, 0x0A#8] e, rfl, by decide, by decide, by decide⟩,
    onLines [true, false] [.err e], _, TErr [0xE1#8] e, rfl, by decide, by decide, by decide⟩

theorem witness_TransactionsAreFramed :
    (∃ s t events, Instr.enterTx.wf = true ∧ exec .enterTx s = .next t ∧ t.outcomes = s.outcomes ++ [.ok .unit] ∧
      t.trace = s.trace ++ events) ∧
    (∃ s t events, Instr.wireFlushTx.wf = true ∧ exec .wireFlushTx s = .next t ∧
      t.outcomes = s.outcomes ++ [.fault (.lineWriteFailed .csn)] ∧ t.trace = s.trace ++ events) ∧
    (∃ s t events, (Instr.construct []).wf = true ∧ exec (.construct []) s = .next t ∧ t.outcomes = s.outcomes ++ [.ok .unit] ∧
      t.trace = s.trace ++ events) ∧
    (∃ s t events, (Instr.construct []).wf = true ∧ exec (.construct []) s = .next t ∧
      t.outcomes = s.outcomes ++ [.fault (.lineWriteFailed .csn)] ∧ t.trace = s.trace ++ events) :=
  ⟨⟨ready .rx 0x0B#8 true [.ok [0x0E#8, 0#8]], _, .pinWrite .ce false :: T [0x20#8, 0x0A#8] [0x0E#8, 0#8], rfl, rfl, by decide,
      by decide⟩,
    ⟨onLines [true, false] [.ok [0x0E#8]], _, T [0xE1#8] [0x0E#8], rfl, rfl, by decide, by decide⟩,
    ⟨fresh [.ok [0x0E#8, 3#8]], _, [.pinWrite .ce false, .pinWrite .csn true] ++ T [0x03#8, 0#8] [0x0E#8, 3#8], rfl, rfl,
      by decide, by decide⟩,
    onLines [true, false] [], _, [.pinWrite .ce false, .pinWrite .csn true], rfl, rfl, by decide, by decide⟩

theorem witness_FramesOnTheBusAreCommands :
    ∃ s t events, Instr.clearInterrupts.wf = true ∧ exec .clearInterrupts s = .next t ∧ t.trace = s.trace ++ events ∧
      s.params = dflt ∧ .exchange [0x27#8, 0x70#8] (.ok [0x4E#8, 0#8]) ∈ events :=
  ⟨ready .rx 0x0B#8 true [.ok [0x4E#8, 0#8]], _, T [0x27#8, 0x70#8] [0x4E#8, 0#8], rfl, rfl, by decide, rfl, by decide⟩

theorem witness_StandbyIsNotReentered :
    ∃ s t, (∀ batch, Instr.enterTx ≠ .construct batch) ∧ exec .enterTx s = .next t ∧ s.mode ≠ .standby :=
  ⟨ready .rx 0x0B#8 true [], _, fun _ h => (by cases h), rfl, by decide⟩

theorem witness_WhereCeIsDriven :
    ∃ s t events, exec (.send []) s = .next t ∧ t.trace = s.trace ++ events ∧ .pinWrite .ce true ∈ events ∧
      .pinWrite .ce false ∈ events :=
  ⟨ready .standby 0x0A#8 false [.ok [0x0E#8]], _, [.pinWrite .ce false] ++ T [0xA0#8] [0x0E#8] ++ [.pinWrite .ce true], rfl,
    by decide, by decide, by decide⟩

/-- R123 in each mode: a live Standby block that enters Tx, one in Tx after a `send`, one in Rx, and a
`construct`. -/
theorem witness_ModeInvariantIsKept :
    (∃ s t, s.params = dflt ∧ KeepsPremise s.params .enterTx ∧ exec .enterTx s = .next t ∧ t.outcomes = s.outcomes ++ [.ok .unit] ∧
      OpOutcome.benign (.ok .unit) = true ∧ Ready s ∧ ModeInv s ∧ s.mode = .standby) ∧
    (∃ s t, s.params = dflt ∧ KeepsPremise s.params .enterTx ∧ exec .enterTx s = .next t ∧ t.outcomes = s.outcomes ++ [.ok .unit] ∧ Ready s ∧ ModeInv s ∧
      s.mode = .tx ∧ s.ce = true) ∧
    (∃ s t, s.params = dflt ∧ KeepsPremise s.params .clearInterrupts ∧ exec .clearInterrupts s = .next t ∧ t.outcomes = s.outcomes ++ [.ok .unit] ∧
      Ready s ∧ ModeInv s ∧ s.mode = .rx) ∧
    (∃ s t, s.params = dflt ∧ KeepsPremise s.params (.construct [.updateConfig powerUp]) ∧ exec (.construct [.updateConfig powerUp]) s = .next t ∧
      t.outcomes = s.outcomes ++ [.ok .unit]) := by
  refine ⟨⟨ready .standby 0x0A#8 false [], _, rfl, trivial, rfl, by decide, rfl, ⟨rfl, rfl⟩, ⟨fun _ => ⟨rfl, by decide⟩,
      fun h => (by cases h), fun h => (by cases h)⟩, rfl⟩,
    ⟨{ ready .tx 0x0A#8 true [] with trace := T [0xA0#8] [0x0E#8] ++ [.pinWrite .ce true] }, _, rfl, trivial, rfl, by decide,
      ⟨rfl, rfl⟩, ⟨fun h => (by cases h), fun h => (by cases h), fun _ => ⟨by decide, fun _ => ⟨[], [], [], [0x0E#8], by decide,
        by decide⟩⟩⟩, rfl, rfl⟩,
    ⟨ready .rx 0x0B#8 true [.ok [0x4E#8, 0#8]], _, rfl, trivial, rfl, by decide, ⟨rfl, rfl⟩, ⟨fun h => (by cases h),
      fun _ => ⟨rfl, by decide⟩, fun h => (by cases h)⟩, rfl⟩,
    fresh [.ok [0x0E#8, 3#8], .ok [0x0E#8, 0#8]], _, rfl, ?_, rfl, by decide⟩
  intro op h
  obtain rfl := List.mem_singleton.1 h
  exact (by decide : ∀ c : Byte, primRx dflt (evalMutatorByte powerUp c).1 = primRx dflt c)

/-- The shape in a state with a request to serve. -/
theorem witness_StepKeepsStateShape :
    ∃ s t : State, s.Wf ∧ s.requests ≠ [] ∧ step s = .next t :=
  ⟨(ready .tx 0x0A#8 false [.ok [0x0E#8]]).setRequests [⟨.wire, [0xE1#8]⟩], _,
    ⟨witness_valid_parameters.1, by decide, by decide, by decide, by decide, by decide, fun _ => rfl⟩, by decide, rfl⟩

/-- Two states that differ in the line levels, the buffer and the temporaries. -/
theorem witness_UnreadStateHasNoEffect :
    ∃ s s' t t' : State, SameButUnread s s' ∧ s.ce ≠ s'.ce ∧ s.buf ≠ s'.buf ∧ s.old ≠ s'.old ∧ exec .enterTx s = .next t ∧
      exec .enterTx s' = .next t' :=
  ⟨ready .rx 0x0B#8 true [.ok [0x0E#8, 0#8]],
    { ready .rx 0x0B#8 false [.ok [0x0E#8, 0#8]] with buf := List.replicate 33 1#8, old := [1#8, 2#8] }, _, _,
    ⟨rfl, rfl, rfl, rfl, rfl, rfl, rfl, rfl, rfl⟩, by decide, by decide, by decide, rfl, rfl⟩

/-- A failed exchange in a block whose errors are strings, and a function that maps them to numbers. -/
theorem witness_ErrorTypeIsOpen :
    ∃ (f : String → Nat) (s t : State String) (events : List (Event String)), f "bus" = 3 ∧
      execOf .wireFlushTx s = .next t ∧ t.trace = s.trace ++ events ∧ .exchange [0xE1#8] (.err "bus") ∈ events ∧
      exchanges events ≤ s.exchAnswers.length :=
  ⟨String.length,
    { (State.resetWith dflt : State String) with live := true, exchAnswers := [.err "bus"], lineAnswers := [true, true] }, _,
    [.pinWrite .csn false, .exchange [0xE1#8] (.err "bus"), .pinWrite .csn true], by decide, rfl, rfl, by decide, by decide⟩

end Sys2Proof.Tests
end

/-! ## Renaming errors, operation by operation

The laws of `Renames` for the shared operations are continued here through construction and the mode machine:
each proof follows the sequence of steps of its operation. -/

namespace Sys2Proof.Machine

variable {E F : Type} {f : E → F} {α β : Type}

/-- A test that no error decides. -/
theorem Renames.ite {s : State E} {r₁ r₂ : Res α E} {r₁' r₂' : Res α F} (c : Prop) [Decidable c]
    (h₁ : Renames f s r₁ r₁') (h₂ : Renames f s r₂ r₂') :
    Renames f s (if c then r₁ else r₂) (if c then r₁' else r₂') := by
  split
  · exact h₁
  · exact h₂

/-- A result that is only wrapped. -/
theorem Renames.map {s : State E} {r : Res α E} {r' : Res α F} (g : α → β) (h : Renames f s r r') :
    Renames f s (r.andThen fun a t => .done (g a) t) (r'.andThen fun a t => .done (g a) t) :=
  h.andThen fun a t => .done (g a) t

theorem Renames.raise (r : FaultReason) (s : State E) :
    Renames f s (raise r s : Res α E) (Machine.raise r (s.mapErrors f)) :=
  .of_eq rfl rfl (.stop (.fault r) (s.setFault true))

theorem Renames.isConnected (p : Config.Params) (s : State E) :
    Renames f s (opIsConnected p s) (opIsConnected p (s.mapErrors f)) :=
  (Renames.readRegister p _ 1 s).andThen fun _ t => .done _ t

/-! ### The mode machine -/

theorem Renames.enterTx (p : Config.Params) (s : State E) :
    Renames f s (opEnterTx p s) (opEnterTx p (s.mapErrors f)) :=
  .ite (s.mode = .tx) (.done () s) <|
    (Renames.pin .ce false s).andThen fun _ s1 =>
      (Renames.updateConfig p _ s1).andThen fun _ s2 => .of_eq rfl rfl (.done () (s2.setMode .tx))

theorem Renames.pollFifo (p : Config.Params) (s : State E) :
    Renames f s (pollFifo p s) (Machine.pollFifo p (s.mapErrors f)) :=
  (Renames.readRegister p _ 1 s).andThen fun _ t => .done _ t

theorem Renames.discardStuck (p : Config.Params) (s : State E) :
    Renames f s (discardStuck p s) (Machine.discardStuck p (s.mapErrors f)) :=
  (Renames.transact p .flushTx s).andThen fun _ s1 =>
    (Renames.writeRegister p _ 1 _ s1).andThen fun _ s2 => .stop .wouldBlock s2

theorem Renames.waitTxReady (p : Config.Params) (s : State E) :
    Renames f s (opWaitTxReady p s) (opWaitTxReady p (s.mapErrors f)) :=
  (Renames.enterTx p s).andThen fun _ s1 =>
    (Renames.pollFifo p s1).andThen fun (status, fifo) s2 =>
      .ite (maxRt p status = true) (.discardStuck p s2) <|
        .ite (txFull p fifo = true) (.stop .wouldBlock s2) (.done () s2)

theorem Renames.waitTxEmpty (p : Config.Params) (s : State E) :
    Renames f s (opWaitTxEmpty p s) (opWaitTxEmpty p (s.mapErrors f)) :=
  (Renames.enterTx p s).andThen fun _ s1 =>
    (Renames.pollFifo p s1).andThen fun (status, fifo) s2 =>
      .ite (maxRt p status = true) (.discardStuck p s2) <|
        .ite (txEmpty p fifo = false) (.stop .wouldBlock s2) (.pin .ce false s2)

theorem Renames.enterRx (p : Config.Params) (s : State E) :
    Renames f s (opEnterRx p s) (opEnterRx p (s.mapErrors f)) :=
  .ite (s.mode = .rx) (.done () s) <|
    (Renames.waitTxEmpty p s).andThen fun _ s1 =>
      (Renames.pin .ce true s1).andThen fun _ s2 =>
        (Renames.updateConfig p _ s2).andThen fun _ s3 => .of_eq rfl rfl (.done () (s3.setMode .rx))

theorem Renames.send (p : Config.Params) (packet : List Byte) (s : State E) :
    Renames f s (opSend p packet s) (opSend p packet (s.mapErrors f)) :=
  .ite (packet.length > Config.MAX_PAYLOAD) (.raise _ s) <|
    (Renames.enterTx p s).andThen fun _ s1 =>
      (Renames.transact p _ s1).andThen fun _ s2 => .pin .ce true s2

theorem Renames.waitRxReady (p : Config.Params) (s : State E) :
    Renames f s (opWaitRxReady p s) (opWaitRxReady p (s.mapErrors f)) :=
  (Renames.enterRx p s).andThen fun _ s1 =>
    (Renames.pollFifo p s1).andThen fun (status, fifo) s2 =>
      .ite (rxEmpty p fifo = true) (.stop .wouldBlock s2) (.done (rxPNo p status) s2)

theorem Renames.read (p : Config.Params) (s : State E) :
    Renames f s (opRead p s) (opRead p (s.mapErrors f)) :=
  (Renames.enterRx p s).andThen fun _ s1 =>
    (Renames.transact p _ s1).andThen fun (_, response) s2 =>
      .ite ((response.bytes.headD 0#8).toNat > Config.MAX_PAYLOAD) (.raise _ s2) <|
        (Renames.transact p _ s2).andThen fun _ s3 => .done _ s3

theorem Renames.clearInterrupts (p : Config.Params) (s : State E) :
    Renames f s (opClearInterrupts p s) (opClearInterrupts p (s.mapErrors f)) :=
  (Renames.writeRegister p _ 1 _ s).andThen fun _ t => .done () t

/-! ### Construction -/

theorem Renames.batchOp (p : Config.Params) (op : BatchOp) (s : State E) :
    Renames f s (runBatchOp p op s) (runBatchOp p op (s.mapErrors f)) := by
  cases op with
  | writeRegister a w v => exact (Renames.writeRegister p a w v s).map _
  | updateRegister a w m => exact (Renames.updateRegister p a w m s).map _
  | updateConfig m => exact (Renames.updateConfig p _ s).map _
  | sendCommand c => exact (Renames.transact p c s).map _

theorem Renames.batch (p : Config.Params) (batch : List BatchOp) (s : State E) :
    Renames f s (runBatch p batch s) (runBatch p batch (s.mapErrors f)) := by
  induction batch generalizing s with
  | nil => exact .done () s
  | cons op ops ih => exact (Renames.batchOp p op s).andThen fun _ t => ih t

theorem Renames.constructBody (p : Config.Params) (batch : List BatchOp) (s : State E) :
    Renames f s (constructBody p batch s) (Machine.constructBody p batch (s.mapErrors f)) :=
  .of_eq (t := (s.setLive false).setFault false) rfl rfl <| (Renames.pin .ce false _).andThen fun _ s1 =>
    (Renames.pin .csn true s1).andThen fun _ s2 =>
      .of_eq (t := (s2.setCfg (constructCfg p)).setMode .standby) rfl rfl <|
        (Renames.isConnected p _).andThen fun ok s3 => .ite (ok = true) (.batch p batch s3) (.stop .notConnected s3)

@[simp] theorem State.forgetWorking_trace (t : State E) : t.forgetWorking.trace = t.trace := by
  simp [State.forgetWorking]

@[simp] theorem State.forgetWorking_exchAnswers (t : State E) : t.forgetWorking.exchAnswers = t.exchAnswers := by
  simp [State.forgetWorking]

@[simp] theorem State.forgetModeCfg_trace (t : State E) : t.forgetModeCfg.trace = t.trace := by
  simp [State.forgetModeCfg]

@[simp] theorem State.forgetModeCfg_exchAnswers (t : State E) : t.forgetModeCfg.exchAnswers = t.exchAnswers := by
  simp [State.forgetModeCfg]

/-- R32: what `construct` sets and forgets at its end holds no error. -/
theorem Renames.construct (p : Config.Params) (batch : List BatchOp) (s : State E) :
    Renames f s (opConstruct p batch s) (opConstruct p batch (s.mapErrors f)) := by
  obtain ⟨events, htrace, hrun⟩ := Renames.constructBody (f := f) p batch s
  unfold opConstruct
  cases h : Machine.constructBody p batch s with
  | done a t =>
    simp only [h, Res.state] at htrace hrun
    refine ⟨events, by simp [Res.state, htrace], fun hx => ?_⟩
    obtain ⟨hanswers, hrenamed⟩ := hrun hx
    exact ⟨by simp [Res.state, hanswers],
      by simp only [hrenamed, Res.mapErrors, mapErrors_forgetWorking, mapErrors_setLive]⟩
  | stop e t =>
    simp only [h, Res.state] at htrace hrun
    refine ⟨events, by simp [Res.state, htrace], fun hx => ?_⟩
    obtain ⟨hanswers, hrenamed⟩ := hrun hx
    exact ⟨by simp [Res.state, hanswers],
      by simp only [hrenamed, Res.mapErrors, mapErrors_forgetWorking, mapErrors_forgetModeCfg]⟩

/-! ### The instructions -/

theorem exec_eq_execOf (i : Instr) (s : State) : exec i s = execOf i s := by
  cases i <;> rfl

/-- R9, R129: an instruction leaves the renamed state from the renamed state, if the script covers its
exchanges. -/
theorem execOf_mapErrors {i : Instr} {s t : State E} {events : List (Event E)} (h : execOf i s = .next t)
    (ht : t.trace = s.trace ++ events) (hx : exchanges events ≤ s.exchAnswers.length) :
    execOf i (s.mapErrors f) = .next (t.mapErrors f) := by
  cases i
  case construct batch =>
    cases h
    exact congrArg Host.Outcome.next ((Renames.construct s.params batch s).finish ht hx)
  all_goals
    simp only [execOf] at h ⊢
    refine Renames.port ?_ h ht hx
  case wireReadRegister a w => exact Renames.sendCommand s.params _ s
  case wireWriteRegister a w v => exact Renames.sendCommand s.params _ s
  case wireReadRxPayload n => exact Renames.sendCommand s.params _ s
  case wireReadRxPayloadWidth => exact Renames.sendCommand s.params _ s
  case wireWriteTxPayload d => exact Renames.sendCommand s.params _ s
  case wireFlushTx => exact Renames.sendCommand s.params _ s
  case wireFlushRx => exact Renames.sendCommand s.params _ s
  case wireActivate => exact Renames.sendCommand s.params _ s
  case ceEnable => exact (Renames.pin .ce true s).map _
  case ceDisable => exact (Renames.pin .ce false s).map _
  case sendCommand c => exact Renames.sendCommand s.params c s
  case writeRegister a w v => exact (Renames.writeRegister s.params a w v s).map _
  case readRegister a w => exact (Renames.readRegister s.params a w s).map _
  case updateRegister a w m => exact (Renames.updateRegister s.params a w m s).map _
  case updateConfig m => exact (Renames.updateConfig s.params _ s).map _
  case isConnected => exact (Renames.isConnected s.params s).map _
  case enterRx => exact (Renames.enterRx s.params s).map _
  case enterTx => exact (Renames.enterTx s.params s).map _
  case send packet => exact (Renames.send s.params packet s).map _
  case waitTxReady => exact (Renames.waitTxReady s.params s).map _
  case waitTxEmpty => exact (Renames.waitTxEmpty s.params s).map _
  case waitRxReady => exact (Renames.waitRxReady s.params s).map _
  case read => exact (Renames.read s.params s).map _
  case clearInterrupts => exact (Renames.clearInterrupts s.params s).map _

/-- Settles O56: `exec` and `step` are `execOf` and `stepOf` by definition, and every operation's run is the
image of its renamed run. -/
theorem errorTypeIsOpen : Obligations.ErrorTypeIsOpen :=
  ⟨exec_eq_execOf, fun s => congrArg (stepWith · s) (funext₂ exec_eq_execOf),
    fun _ _ _ _ _ _ _ h ht hx => execOf_mapErrors h ht hx⟩

end Sys2Proof.Machine

/-! ## A relation that every update of State respects

An operation changes State only through the updates of Ops.lean.  So a reflexive and transitive relation
between a state and each of its updates relates the states before and after every operation. -/

namespace Sys2Proof.Machine

/-- A reflexive and transitive relation from a state to whatever an operation's updates make of it.  The
answer to the host and the queue of requests are the host port's and are left out. -/
structure UpdateClosed (R : State → State → Prop) : Prop where
  refl : ∀ s, R s s
  trans : ∀ {s t u}, R s t → R t u → R s u
  setMode : ∀ s m, R s (s.setMode m)
  setCfg : ∀ s c, R s (s.setCfg c)
  setLine : ∀ s l b, R s (s.setLine l b)
  setLive : ∀ s b, R s (s.setLive b)
  setFault : ∀ s b, R s (s.setFault b)
  setBuf : ∀ s bytes n, R s (s.setBuf bytes n)
  setTemps : ∀ s old new, R s (s.setTemps old new)
  record : ∀ s e, R s (s.record e)
  setExchAnswers : ∀ s xs, R s (s.setExchAnswers xs)
  setLineAnswers : ∀ s xs, R s (s.setLineAnswers xs)
  draw : ∀ s, R s s.draw

namespace UpdateClosed

variable {R : State → State → Prop} {p : Config.Params} {α β : Type}

theorem andThen (L : UpdateClosed R) {s : State} {r : Res α} {f : α → State → Res β} (first : R s r.state)
    (second : ∀ a s1, r = .done a s1 → R s1 (f a s1).state) : R s (r.andThen f).state :=
  Res.andThen_rel (R := R) L.trans first second

theorem pin (L : UpdateClosed R) (l : Line) (b : Bool) (s : State) : R s (pin l b s).state := by
  obtain ⟨s1, hs1, hend⟩ := pin_cases l b s
  have answered : R s s1 := by
    obtain rfl | ⟨rest, rfl⟩ := hs1
    · exact L.draw s
    · exact L.setLineAnswers s rest
  have written := L.trans answered (L.trans (L.setLine s1 l b) (L.record _ (.pinWrite l b)))
  obtain h | h := hend <;> rw [h]
  · exact written
  · exact L.trans written (L.setFault _ true)

theorem exchange (L : UpdateClosed R) (tx : List Byte) (s : State) : R s (exchange tx s).2 := by
  obtain ⟨s1, hs1, hend⟩ := exchange_cases tx s
  have answered : R s s1 := by
    obtain rfl | ⟨rest, rfl⟩ := hs1
    · exact L.draw s
    · exact L.setExchAnswers s rest
  obtain ⟨e, h⟩ | ⟨rx, -, h⟩ := hend <;> rw [h] <;> exact L.trans answered (L.record s1 _)

theorem closeTransaction (L : UpdateClosed R) (c : Command) (r : Answer) (s : State) :
    R s (closeTransaction c r s).state := by
  cases r with
  | err e =>
    exact L.trans (L.trans (L.setBuf s _ _) (L.draw _)) <|
      L.andThen (L.pin .csn true s.loseBuf) fun _ s1 _ => L.refl s1
  | ok rx => exact L.andThen (L.pin .csn true s) fun _ s1 _ => L.setBuf s1 _ _

theorem transact (L : UpdateClosed R) (p : Config.Params) (c : Command) (s : State) : R s (transact p c s).state := by
  unfold Machine.transact
  split
  · exact L.setFault s true
  · exact L.trans (L.trans (L.setBuf s _ _) (L.draw _)) <|
      L.andThen (L.pin .csn false (s.allocBuf (encodeFrame p c))) fun _ s1 _ =>
        L.trans (L.exchange s1.region s1) (L.closeTransaction c _ _)

/-- The relation, whatever the early end, has all that the operations of the mode machine need. -/
theorem steps (L : UpdateClosed R) : RxSteps p (fun s _ t => R s t) fun _ => True where
  refl := L.refl
  trans := L.trans
  transact c s _ := L.transact p c s
  lower := L.pin .ce false
  clearPrimRx s := L.trans (L.setTemps s _ _) (L.setCfg _ _)
  toTx s := L.setMode s .tx
  writeConfig _ := trivial
  block := L.refl
  poll := trivial
  flush := trivial
  writeStatus _ := trivial
  raiseCe := L.pin .ce true
  setPrimRx s := L.trans (L.setTemps s _ _) (L.setCfg _ _)
  toRx s := L.setMode s .rx

/-- A result that is only wrapped. -/
theorem map (L : UpdateClosed R) {s : State} {r : Res α} (g : α → β) (h : R s r.state) :
    R s (r.andThen fun a s1 => .done (g a) s1).state :=
  L.andThen h fun _ s1 _ => L.refl s1

theorem updateRegister (L : UpdateClosed R) (p : Config.Params) (a : RegAddr) (w : Nat) (f : Mutator) (s : State) :
    R s (opUpdateRegister p a w f s).state :=
  opUpdateRegister_holds (L.steps (p := p)).toSequential s (L.setFault s true) trivial (fun _ _ _ _ => trivial)
    fun _ _ s1 _ => L.setTemps s1 _ _

theorem updateConfigWith (L : UpdateClosed R) (p : Config.Params) (f : Byte → Byte × MutResult) (s : State) :
    R s (updateConfigWith p f s).state :=
  updateConfigWith_holds (L.steps (p := p)).toSequential s (fun _ => trivial)
    (L.trans (L.setTemps s _ _) (L.setCfg _ _))

theorem runBatchOp (L : UpdateClosed R) (p : Config.Params) (op : BatchOp) (s : State) :
    R s (runBatchOp p op s).state := by
  cases op with
  | writeRegister a w v => exact L.map _ (opWriteRegister_holds (L.steps (p := p)).toSequential trivial s)
  | updateRegister a w f => exact L.map _ (L.updateRegister p a w f s)
  | updateConfig f => exact L.map _ (L.updateConfigWith p _ s)
  | sendCommand c => exact L.map _ (L.transact p c s)

theorem constructBody (L : UpdateClosed R) (p : Config.Params) (batch : List BatchOp) (s : State) :
    R s (constructBody p batch s).state := by
  have S := (L.steps (p := p)).toSequential
  refine L.trans (L.trans (L.setLive s false) (L.setFault _ false)) <|
    L.andThen (L.pin .ce false _) fun _ s1 _ =>
      L.andThen (L.pin .csn true s1) fun _ s2 _ =>
        L.trans (L.trans (L.setCfg s2 _) (L.setMode _ .standby)) <|
          L.andThen (opIsConnected_holds S trivial _) fun ok s3 _ => ?_
  split
  · exact runBatch_holds S batch (fun op _ => L.runBatchOp p op) s3
  · exact L.refl s3

theorem forgetWorking (L : UpdateClosed R) (s : State) : R s s.forgetWorking :=
  L.trans (L.trans (L.setBuf s _ _) (L.setTemps _ _ _)) (L.trans (L.trans (L.draw _) (L.draw _)) (L.draw _))

theorem forgetModeCfg (L : UpdateClosed R) (s : State) : R s s.forgetModeCfg :=
  L.trans (L.trans (L.setMode s _) (L.setCfg _ _)) (L.draw _)

theorem opConstruct (L : UpdateClosed R) (p : Config.Params) (batch : List BatchOp) (s : State) :
    R s (opConstruct p batch s).state := by
  have body := L.constructBody p batch s
  unfold Machine.opConstruct
  split <;> rename_i h <;> rw [h] at body
  · exact L.trans body (L.trans (L.setLive _ true) (L.forgetWorking _))
  · exact L.trans body (L.trans (L.forgetWorking _) (L.forgetModeCfg _))

/-- The operation of every instruction. -/
theorem hostOp (L : UpdateClosed R) (p : Config.Params) (i : Instr) (s : State) : R s (hostOp p i s).state := by
  have X := L.steps (p := p)
  have S := X.toSequential
  cases i with
  | construct batch => exact L.opConstruct p batch s
  | wireReadRegister a w => exact L.map _ (L.transact p _ s)
  | wireWriteRegister a w v => exact L.map _ (L.transact p _ s)
  | wireReadRxPayload n => exact L.map _ (L.transact p _ s)
  | wireReadRxPayloadWidth => exact L.map _ (L.transact p _ s)
  | wireWriteTxPayload d => exact L.map _ (L.transact p _ s)
  | wireFlushTx => exact L.map _ (L.transact p _ s)
  | wireFlushRx => exact L.map _ (L.transact p _ s)
  | wireActivate => exact L.map _ (L.transact p _ s)
  | ceEnable => exact L.map _ (L.pin .ce true s)
  | ceDisable => exact L.map _ (L.pin .ce false s)
  | sendCommand c => exact L.map _ (L.transact p c s)
  | writeRegister a w v => exact L.map _ (opWriteRegister_holds S trivial s)
  | readRegister a w => exact L.map _ (opReadRegister_holds S trivial s)
  | updateRegister a w f => exact L.map _ (L.updateRegister p a w f s)
  | updateConfig f => exact L.map _ (L.updateConfigWith p _ s)
  | isConnected => exact L.map _ (opIsConnected_holds S trivial s)
  | enterRx => exact L.map _ (opEnterRx_holds X s)
  | enterTx => exact L.map _ (opEnterTx_holds X.toTxSteps s)
  | send packet => exact L.map _ (opSend_holds X.toTxSteps s (L.setFault s true) (L.pin .ce true) fun _ => trivial)
  | waitTxReady => exact L.map _ (opWaitTxReady_holds X.toPollSteps s)
  | waitTxEmpty => exact L.map _ (opWaitTxEmpty_holds X.toPollSteps s)
  | waitRxReady => exact L.map _ (opWaitRxReady_holds X s)
  | read => exact L.map _ (opRead_holds X s (L.setFault · true) trivial fun _ _ => trivial)
  | clearInterrupts => exact L.map _ (opClearInterrupts_holds S trivial s)

end UpdateClosed

/-! ## One outcome per operation -/

/-- Nothing is answered yet, no request is taken or added, the parameters stay, and the trace is only
extended. -/
structure OnlyPerforms (s t : State) : Prop where
  outcomes : t.outcomes = s.outcomes
  requests : t.requests = s.requests
  params : t.params = s.params
  trace : s.trace <+: t.trace

theorem OnlyPerforms.of_eq {s t : State} (ho : t.outcomes = s.outcomes) (hr : t.requests = s.requests)
    (hp : t.params = s.params) (ht : t.trace = s.trace) : OnlyPerforms s t :=
  ⟨ho, hr, hp, by rw [ht]⟩

theorem OnlyPerforms.trans {s t u : State} (h : OnlyPerforms s t) (h' : OnlyPerforms t u) : OnlyPerforms s u :=
  ⟨h'.outcomes.trans h.outcomes, h'.requests.trans h.requests, h'.params.trans h.params, h.trace.trans h'.trace⟩

theorem onlyPerforms_updateClosed : UpdateClosed OnlyPerforms where
  refl _ := .of_eq rfl rfl rfl rfl
  trans := .trans
  setMode _ _ := .of_eq rfl rfl rfl rfl
  setCfg _ _ := .of_eq rfl rfl rfl rfl
  setLine _ l _ := by cases l <;> exact .of_eq rfl rfl rfl rfl
  setLive _ _ := .of_eq rfl rfl rfl rfl
  setFault _ _ := .of_eq rfl rfl rfl rfl
  setBuf _ _ _ := .of_eq rfl rfl rfl rfl
  setTemps _ _ _ := .of_eq rfl rfl rfl rfl
  record s e := ⟨rfl, rfl, rfl, [e], rfl⟩
  setExchAnswers _ _ := .of_eq rfl rfl rfl rfl
  setLineAnswers _ _ := .of_eq rfl rfl rfl rfl
  draw _ := .of_eq rfl rfl rfl rfl

/-- The answer to the host: exactly one outcome, after whatever was performed. -/
theorem OnlyPerforms.answer {s t : State} (h : OnlyPerforms s t) (o : OpOutcome) :
    ∃ events, (t.answer o).outcomes = s.outcomes ++ [o] ∧ (t.answer o).trace = s.trace ++ events ∧
      (t.answer o).requests = s.requests ∧ (t.answer o).params = s.params := by
  obtain ⟨events, he⟩ := h.trace
  exact ⟨events, by simp [h.outcomes], by simp [he], by simp [h.requests], by simp [h.params]⟩

/-- Settles O13: an operation only performs events before its outcome is answered, and a refusal is an answer
alone. -/
theorem oneOutcomePerOperation : Obligations.OneOutcomePerOperation := by
  intro i s
  obtain ⟨-, h⟩ | ⟨-, -, h⟩ := exec_cases i s
  · obtain ⟨events, hanswer⟩ :=
      (onlyPerforms_updateClosed.hostOp s.params i s).answer (hostOp s.params i s).outcome
    exact ⟨_, _, events, h, hanswer⟩
  · obtain ⟨events, hanswer⟩ := (onlyPerforms_updateClosed.refl s).answer (.refused .notLive)
    exact ⟨_, _, events, h, hanswer⟩

end Sys2Proof.Machine

/-! ## The parameters -/

namespace Sys2Proof.Machine

/-- R8: the named positions of CONFIG lie inside the byte. -/
theorem configBit_lt_of_valid {p : Config.Params} (h : p.Valid) {i : Nat} (hi : i ∈ p.configBits) : i < 8 := by
  obtain ⟨-, -, -, -, hlt, -⟩ := h
  exact hlt i hi

/-- R153: a mask bit of the initial cache is clear. -/
theorem initialCfg_mask_clear {p : Config.Params} (hp : p.Valid) {k : Nat}
    (hmask : k = p.CFG_MASK_RX_DR ∨ k = p.CFG_MASK_TX_DS ∨ k = p.CFG_MASK_MAX_RT) :
    getBit (initialCfg p) k = false := by
  have hk : k < 8 := configBit_lt_of_valid hp (by rcases hmask with rfl | rfl | rfl <;> simp [Config.Params.configBits])
  rw [getBit_eq, initialCfg_getLsbD p k hk, if_pos hmask]

/-- R153: any other bit of the initial cache is the reset pattern's, beyond the byte too. -/
theorem initialCfg_other_bit (p : Config.Params) {k : Nat} (h1 : k ≠ p.CFG_MASK_RX_DR) (h2 : k ≠ p.CFG_MASK_TX_DS)
    (h3 : k ≠ p.CFG_MASK_MAX_RT) : (initialCfg p).getLsbD k = p.CONFIG_RESET.getLsbD k := by
  by_cases hk : k < 8
  · rw [initialCfg_getLsbD p k hk, if_neg (by simp [h1, h2, h3])]
  · rw [BitVec.getLsbD_of_ge _ _ (Nat.not_lt.mp hk), BitVec.getLsbD_of_ge _ _ (Nat.not_lt.mp hk)]

/-- R8: no constraint of the record speaks of `CONFIG_RESET`. -/
theorem valid_with_configReset {p : Config.Params} (h : p.Valid) (c : Byte) :
    Config.Params.Valid { p with CONFIG_RESET := c } := h

theorem defaults_valid : Config.defaults.Valid := by
  simp only [Config.Params.Valid, Config.fieldSpans]
  decide

/-- Settles O9, bit by bit from `initialCfg_getLsbD`; the three records by evaluation. -/
theorem parametersAreValid : Obligations.ParametersAreValid := by
  refine ⟨fun p hp => ⟨(constructCfg_eq p).symm, rfl, ?_, ?_, ?_, fun k => initialCfg_other_bit p⟩,
    defaults_valid, by decide, valid_with_configReset defaults_valid _, by decide,
    valid_with_configReset defaults_valid _, by decide⟩
  · exact initialCfg_mask_clear hp (.inl rfl)
  · exact initialCfg_mask_clear hp (.inr (.inl rfl))
  · exact initialCfg_mask_clear hp (.inr (.inr rfl))

/-! ## The step -/

/-- R3: with no request the block does nothing. -/
theorem step_of_no_request {s : State} (h : s.requests = []) : step s = .next s := by
  simp [step, stepWith, h]

/-- R3, R4: the next request is taken from the queue and served. -/
theorem step_of_request {s : State} {r : Request} {rest : List Request} (h : s.requests = r :: rest) :
    step s = serveWith exec r (s.setRequests rest) := by
  simp [step, stepWith, h]

/-- R69: a request that spells an instruction is that instruction's run. -/
theorem serveWith_of_decode_ok {s : State} {r : Request} {i : Instr} (h : decode s.params r = .ok i) :
    serveWith exec r s = exec i s := by
  simp [serveWith, h]

/-- R69, R136: any other request is answered without running an instruction. -/
theorem serveWith_of_decode_error {s : State} {r : Request} {e : DecodeError} (h : decode s.params r = .error e) :
    serveWith exec r s = undecoded e s := by
  simp [serveWith, h]

/-- Settles O12, by the three answers of the decoder. -/
theorem stepServesTheNextRequest : Obligations.StepServesTheNextRequest := by
  refine ⟨fun s r rest i hr hd => ?_, fun s r rest hr hd => ?_, fun s r rest hr hd => ?_,
    fun s => step_of_no_request⟩
  · exact (step_of_request hr).trans (serveWith_of_decode_ok hd)
  · exact (step_of_request hr).trans (serveWith_of_decode_error (s := s.setRequests rest) hd)
  · exact (step_of_request hr).trans (serveWith_of_decode_error (s := s.setRequests rest) hd)

end Sys2Proof.Machine

/-! ## A fact about early ends that every operation keeps

`Sequential` and its extensions say what a fact needs of each nested operation; here the needs of all operations
of the host port are put together once.  `ok` says whether the fact may rely on well-formed operands. -/

namespace Sys2Proof.Machine

/-- What a fact of the form "from `s` the operation ends with early end `e` (or none) in `t`" needs to hold of every
operation; where `ok` holds it may use that commands and temporaries have the widths of R36 and R38. -/
structure PortSteps (p : Config.Params) (ok : Prop) (Q : State → Option Early → State → Prop) : Prop where
  refl : ∀ s, Q s none s
  trans : ∀ {s t u e}, Q s none t → Q t e u → Q s e u
  transact : ∀ c s, (ok → c.wf = true) → Holds Q s (transact p c s)
  writeCe : ∀ b s, Holds Q s (pin .ce b s)
  setMode : ∀ s m, Q s none (s.setMode m)
  setCfg : ∀ s c, Q s none (s.setCfg c)
  setTemps : ∀ s old new, (ok → widthOk old.length = true ∧ widthOk new.length = true) → Q s none (s.setTemps old new)
  stop : ∀ s e, (∀ r, e ≠ .fault r) → Q s (some e) s
  fault : ∀ s r, Q s (some (.fault r)) (s.setFault true)

/-- R152: `construct(batch)` after its two line writes. -/
def checkThenRunBatch (p : Config.Params) (batch : List BatchOp) (s : State) : Res Unit :=
  (opIsConnected p ((s.setCfg (constructCfg p)).setMode .standby)).andThen fun connected s1 =>
    if connected = true then runBatch p batch s1 else .stop .notConnected s1

theorem constructBody_eq (p : Config.Params) (batch : List BatchOp) (s : State) :
    constructBody p batch s =
      (pin .ce false ((s.setLive false).setFault false)).andThen fun _ s1 =>
        (pin .csn true s1).andThen fun _ s2 => checkThenRunBatch p batch s2 := rfl

namespace PortSteps

variable {p : Config.Params} {ok : Prop} {Q : State → Option Early → State → Prop}

theorem sequential (X : PortSteps p ok Q) : Sequential p Q fun c => ok → c.wf = true where
  refl := X.refl
  trans := X.trans
  transact := X.transact

theorem setConfig (X : PortSteps p ok Q) (s : State) (old new c : Byte) :
    Q s none ((s.setTemps [old] [new]).setCfg c) :=
  X.trans (X.setTemps s _ _ fun _ => ⟨rfl, rfl⟩) (X.setCfg _ c)

theorem rxSteps (X : PortSteps p ok Q) : RxSteps p Q fun c => ok → c.wf = true where
  toSequential := X.sequential
  lower := X.writeCe false
  clearPrimRx s := X.setConfig s _ _ _
  toTx s := X.setMode s .tx
  writeConfig _ _ := rfl
  block s := X.stop s .wouldBlock nofun
  poll _ := rfl
  flush _ := rfl
  writeStatus _ _ := rfl
  raiseCe := X.writeCe true
  setPrimRx s := X.setConfig s _ _ _
  toRx s := X.setMode s .rx

/-- R103: a well-formed mutator answers a value of its register's width. -/
theorem updateRegister (X : PortSteps p ok Q) {a : RegAddr} {w : Nat} {f : Mutator}
    (hwf : ok → widthOk w = true ∧ f.wf w = true) (s : State) : Holds Q s (opUpdateRegister p a w f s) := by
  have widths {st old s1} (hok : ok) (h : opReadRegister p a w s = .done (st, old) s1) :
      old.length = w ∧ (evalMutator f old).1.length = w := by
    have hold := opReadRegister_done_length (hwf hok).1 h
    exact ⟨hold, evalMutator_length (hwf hok).2 hold⟩
  refine opUpdateRegister_holds X.sequential s (X.fault s _) (fun hok => (hwf hok).1) ?_ ?_
  · intro st old s1 h hok
    simp [Command.wf, hwf hok, widths hok h]
  · intro st old s1 h
    exact X.setTemps s1 _ _ fun hok => by simp [hwf hok, widths hok h]

theorem updateConfigWith (X : PortSteps p ok Q) (f : Byte → Byte × MutResult) (s : State) :
    Holds Q s (updateConfigWith p f s) :=
  updateConfigWith_holds X.sequential s (fun _ _ => rfl) (X.setConfig s _ _ _)

theorem runBatchOp (X : PortSteps p ok Q) {op : BatchOp} (hwf : ok → op.wf = true) (s : State) :
    Holds Q s (runBatchOp p op s) := by
  have S := X.sequential
  cases op with
  | writeRegister a w v => exact S.map _ (opWriteRegister_holds S hwf s)
  | updateRegister a w f => exact S.map _ (X.updateRegister (fun hok => by simpa [BatchOp.wf] using hwf hok) s)
  | updateConfig f => exact S.map _ (X.updateConfigWith _ s)
  | sendCommand c => exact S.map _ (S.transact c s hwf)

theorem checkThenRunBatch (X : PortSteps p ok Q) {batch : List BatchOp} (hwf : ok → ∀ op ∈ batch, op.wf = true)
    (s : State) : Holds Q s (checkThenRunBatch p batch s) := by
  have S := X.sequential
  refine S.update (X.trans (X.setCfg s (constructCfg p)) (X.setMode _ .standby)) ?_
  refine S.andThen (opIsConnected_holds S (fun _ => rfl) _) fun connected s1 _ => ?_
  split
  · exact runBatch_holds S batch (fun op hop => X.runBatchOp fun hok => hwf hok op hop) s1
  · exact X.stop s1 .notConnected nofun

/-- Every operation of the host port but `construct`. -/
theorem hostOp (X : PortSteps p ok Q) {i : Instr} (hwf : ok → i.wf = true) (hi : ∀ batch, i ≠ .construct batch)
    (s : State) : Holds Q s (hostOp p i s) := by
  have S := X.sequential
  have R := X.rxSteps
  cases i with
  | construct batch => exact absurd rfl (hi batch)
  | wireReadRegister a w => exact opSendCommand_holds S (c := .readRegister a w) hwf s
  | wireWriteRegister a w v => exact opSendCommand_holds S (c := .writeRegister a w v) hwf s
  | wireReadRxPayload n => exact opSendCommand_holds S (fun _ => rfl) s
  | wireReadRxPayloadWidth => exact opSendCommand_holds S (fun _ => rfl) s
  | wireWriteTxPayload d => exact opSendCommand_holds S (fun _ => rfl) s
  | wireFlushTx => exact opSendCommand_holds S (fun _ => rfl) s
  | wireFlushRx => exact opSendCommand_holds S (fun _ => rfl) s
  | wireActivate => exact opSendCommand_holds S (fun _ => rfl) s
  | ceEnable => exact S.map _ (X.writeCe true s)
  | ceDisable => exact S.map _ (X.writeCe false s)
  | sendCommand c => exact opSendCommand_holds S hwf s
  | writeRegister a w v => exact S.map _ (opWriteRegister_holds S hwf s)
  | readRegister a w => exact S.map _ (opReadRegister_holds S hwf s)
  | updateRegister a w f => exact S.map _ (X.updateRegister (fun hok => by simpa [Instr.wf] using hwf hok) s)
  | updateConfig f => exact S.map _ (X.updateConfigWith _ s)
  | isConnected => exact S.map _ (opIsConnected_holds S (fun _ => rfl) s)
  | enterRx => exact S.map _ (opEnterRx_holds R s)
  | enterTx => exact S.map _ (opEnterTx_holds R.toTxSteps s)
  | send packet => exact S.map _ (opSend_holds R.toTxSteps s (X.fault s _) (X.writeCe true) fun _ _ => rfl)
  | waitTxReady => exact S.map _ (opWaitTxReady_holds R.toPollSteps s)
  | waitTxEmpty => exact S.map _ (opWaitTxEmpty_holds R.toPollSteps s)
  | waitRxReady => exact S.map _ (opWaitRxReady_holds R s)
  | read => exact S.map _ (opRead_holds R s (X.fault · _) (fun _ => rfl) fun _ _ _ => rfl)
  | clearInterrupts => exact S.map _ (opClearInterrupts_holds S (fun _ => rfl) s)

end PortSteps

/-! ### What a transaction leaves, whichever way it ends -/

/-- R96, R100: a transaction either faults before its first event or begins by opening chip-select, and then leaves the
frame's length in the buffer, and chip-select high unless a line write failed. -/
theorem transact_state (p : Config.Params) (c : Command) (s : State) :
    (transact p c s).state = s.setFault true ∨
    (frameLen c ≤ Config.BUF_LEN ∧ BufferHolds (transact p c s).state (encodeFrame p c) ∧
      (∃ events, Carries s (transact p c s).state (.pinWrite .csn false :: events)) ∧
      ((transact p c s).state.fault = false → (transact p c s).state.csn = true)) := by
  obtain ⟨-, h⟩ | ⟨hlen, t, hbuf, hend⟩ := transact_cases p c s
  · exact .inl (by rw [h, Res.state_stop])
  · refine .inr ⟨hlen, ?_⟩
    obtain ⟨hc, -, hfault, h⟩ | ⟨r, -, hc, hcsn, hend⟩ := hend
    · rw [h, Res.state_stop]
      exact ⟨hbuf, ⟨[], hc⟩, by simp [hfault]⟩
    · have hstate : (transact p c s).state = t := by
        obtain ⟨-, h⟩ | ⟨-, ⟨e, -, h⟩ | ⟨rx, -, h⟩⟩ := hend <;> rw [h] <;> rfl
      rw [hstate]
      exact ⟨hbuf, ⟨_, hc⟩, fun _ => hcsn⟩

/-! ## The shape of the state -/

/-- R20, R21: the part of the shape that speaks of the working registers. -/
structure WorkingWf (s : State) : Prop where
  buf : s.buf.length = Config.BUF_LEN
  lenPos : 1 ≤ s.len
  lenLe : s.len ≤ Config.BUF_LEN
  oldWidth : widthOk s.old.length = true
  newWidth : widthOk s.new.length = true

/-- R17: the part of the shape that speaks of chip-select. -/
def CsnReleased (s : State) : Prop := s.fault = false → s.csn = true

theorem wf_iff {s : State} : s.Wf ↔ s.params.Valid ∧ WorkingWf s ∧ CsnReleased s :=
  ⟨fun ⟨hp, hbuf, hpos, hle, hold, hnew, hcsn⟩ => ⟨hp, ⟨hbuf, hpos, hle, hold, hnew⟩, hcsn⟩,
    fun ⟨hp, ⟨hbuf, hpos, hle, hold, hnew⟩, hcsn⟩ => ⟨hp, hbuf, hpos, hle, hold, hnew, hcsn⟩⟩

/-- The shape does not speak of the answers given and the requests to come. -/
theorem State.Wf.answer {s : State} (h : s.Wf) (o : OpOutcome) : (s.answer o).Wf :=
  ⟨h.params, h.buf, h.lenPos, h.lenLe, h.oldWidth, h.newWidth, h.csn⟩

theorem State.Wf.setRequests {s : State} (h : s.Wf) (rs : List Request) : (s.setRequests rs).Wf :=
  ⟨h.params, h.buf, h.lenPos, h.lenLe, h.oldWidth, h.newWidth, h.csn⟩

/-! ### The working registers -/

theorem pin_working (l : Line) (b : Bool) (s : State) (h : WorkingWf s) : WorkingWf (pin l b s).state := by
  obtain ⟨s1, rfl | ⟨rest, rfl⟩, hend | hend⟩ := pin_cases l b s <;> rw [hend] <;> cases l <;>
    exact ⟨h.buf, h.lenPos, h.lenLe, h.oldWidth, h.newWidth⟩

theorem transact_working (p : Config.Params) {c : Command} (hwf : c.wf = true) (s : State) (h : WorkingWf s) :
    WorkingWf (transact p c s).state := by
  obtain hfault | ⟨hlen, hbuf, ⟨_, hc⟩, -⟩ := transact_state p c s
  · rw [hfault]
    exact ⟨h.buf, h.lenPos, h.lenLe, h.oldWidth, h.newWidth⟩
  · rw [← encodeFrame_length (p := p) hwf] at hlen
    obtain ⟨hbuf, heq⟩ := hbuf hlen
    exact ⟨hbuf, heq ▸ encodeFrame_pos p c, heq ▸ hlen, hc.old ▸ h.oldWidth, hc.new ▸ h.newWidth⟩

/-- Operations on well-formed operands keep the working registers in shape. -/
theorem working_portSteps (p : Config.Params) : PortSteps p True fun s _ t => WorkingWf s → WorkingWf t where
  refl _ h := h
  trans h1 h2 h := h2 (h1 h)
  transact _ s hwf := transact_working p (hwf trivial) s
  writeCe := pin_working .ce
  setMode _ _ h := ⟨h.buf, h.lenPos, h.lenLe, h.oldWidth, h.newWidth⟩
  setCfg _ _ h := ⟨h.buf, h.lenPos, h.lenLe, h.oldWidth, h.newWidth⟩
  setTemps _ _ _ hwf h := ⟨h.buf, h.lenPos, h.lenLe, (hwf trivial).1, (hwf trivial).2⟩
  stop _ _ _ h := h
  fault _ _ h := ⟨h.buf, h.lenPos, h.lenLe, h.oldWidth, h.newWidth⟩

@[simp] theorem State.forgetWorking_live (s : State) : s.forgetWorking.live = s.live := rfl
@[simp] theorem State.forgetWorking_fault (s : State) : s.forgetWorking.fault = s.fault := rfl
@[simp] theorem State.forgetWorking_csn (s : State) : s.forgetWorking.csn = s.csn := rfl
@[simp] theorem State.forgetModeCfg_live (s : State) : s.forgetModeCfg.live = s.live := rfl
@[simp] theorem State.forgetModeCfg_fault (s : State) : s.forgetModeCfg.fault = s.fault := rfl
@[simp] theorem State.forgetModeCfg_csn (s : State) : s.forgetModeCfg.csn = s.csn := rfl

/-- R32: the values forgotten registers take are in shape, whatever the state. -/
theorem forgetWorking_working (s : State) : WorkingWf s.forgetWorking where
  buf := by simp [State.forgetWorking]
  lenPos := by simp [State.forgetWorking]
  lenLe := by
    have := Nat.mod_lt (Config.freeLength s.draws) (show 0 < Config.BUF_LEN by decide)
    simp [State.forgetWorking]; omega
  oldWidth := by
    have := Nat.mod_lt (Config.freeLength (s.draws + 1)) (show 0 < 5 by decide)
    simp [State.forgetWorking, widthOk_iff, Config.REG_WIDTH_MAX]; omega
  newWidth := by
    have := Nat.mod_lt (Config.freeLength (s.draws + 2)) (show 0 < 5 by decide)
    simp [State.forgetWorking, widthOk_iff, Config.REG_WIDTH_MAX]; omega

theorem opConstruct_working (p : Config.Params) (batch : List BatchOp) (s : State) :
    WorkingWf (opConstruct p batch s).state := by
  unfold opConstruct
  split
  case h_1 t _ => exact forgetWorking_working (t.setLive true)
  case h_2 t _ =>
    have h := forgetWorking_working t
    exact ⟨h.buf, h.lenPos, h.lenLe, h.oldWidth, h.newWidth⟩

/-! ### Chip-select -/

/-- R16, R135: a CE write leaves chip-select alone, and only its failure changes the fault bit. -/
theorem pin_ce_csnReleased (b : Bool) (s : State) (h : CsnReleased s) : CsnReleased (pin .ce b s).state := by
  obtain ⟨s1, hs1, hend | hend⟩ := pin_cases .ce b s <;> rw [hend]
  · obtain rfl | ⟨rest, rfl⟩ := hs1 <;> exact h
  · exact nofun

theorem transact_csnReleased (p : Config.Params) (c : Command) (s : State) : CsnReleased (transact p c s).state := by
  obtain hfault | ⟨-, -, -, hcsn⟩ := transact_state p c s
  · rw [hfault]
    exact nofun
  · exact hcsn

/-- Operations release chip-select unless they fault. -/
theorem csnReleased_portSteps (p : Config.Params) : PortSteps p False fun s _ t => CsnReleased s → CsnReleased t where
  refl _ h := h
  trans h1 h2 h := h2 (h1 h)
  transact c s _ _ := transact_csnReleased p c s
  writeCe := pin_ce_csnReleased
  setMode _ _ h := h
  setCfg _ _ h := h
  setTemps _ _ _ _ h := h
  stop _ _ _ h := h
  fault _ _ _ := nofun

/-- R17, R152: a write of 1 to CSN that succeeds leaves it high. -/
theorem pin_csn_high (s : State) : CsnReleased (pin .csn true s).state := by
  obtain ⟨s1, -, hend | hend⟩ := pin_cases .csn true s <;> rw [hend]
  · exact fun _ => rfl
  · exact nofun

/-- R152: `construct` begins by releasing chip-select, wherever it finds it. -/
theorem constructBody_csnReleased (p : Config.Params) (batch : List BatchOp) (s : State) :
    CsnReleased (constructBody p batch s).state := by
  rw [constructBody_eq]
  obtain ⟨s1, -, hce | hce⟩ := pin_cases .ce false ((s.setLive false).setFault false) <;> rw [hce]
  · simp only [Res.andThen_done]
    generalize (s1.setLine .ce false).record (.pinWrite .ce false) = s2
    have hcsn := pin_csn_high s2
    cases hpin : pin .csn true s2 with
    | done _ s3 =>
      rw [hpin] at hcsn
      exact (csnReleased_portSteps p).checkThenRunBatch nofun s3 hcsn
    | stop e s3 => rwa [hpin] at hcsn
  · exact nofun

theorem opConstruct_csnReleased (p : Config.Params) (batch : List BatchOp) (s : State) :
    CsnReleased (opConstruct p batch s).state := by
  have h := constructBody_csnReleased p batch s
  unfold opConstruct
  split <;> rename_i hbody <;> rw [hbody] at h <;> simpa [CsnReleased] using h

/-! ### Every instruction, every step -/

/-- The operation of a well-formed instruction keeps the shape. -/
theorem hostOp_wf {i : Instr} (hwf : i.wf = true) {s : State} (h : s.Wf) : (hostOp s.params i s).state.Wf := by
  obtain ⟨hvalid, hworking, hcsn⟩ := wf_iff.1 h
  have hparams := (onlyPerforms_updateClosed.hostOp s.params i s).params
  refine wf_iff.2 ⟨by rwa [hparams], ?_⟩
  by_cases hi : ∃ batch, i = .construct batch
  · obtain ⟨batch, rfl⟩ := hi
    exact ⟨opConstruct_working s.params batch s, opConstruct_csnReleased s.params batch s⟩
  · have hi : ∀ batch, i ≠ .construct batch := fun batch hb => hi ⟨batch, hb⟩
    exact ⟨(working_portSteps s.params).hostOp (fun _ => hwf) hi s hworking,
      (csnReleased_portSteps s.params).hostOp nofun hi s hcsn⟩

theorem exec_wf {i : Instr} (hwf : i.wf = true) {s t : State} (h : s.Wf) (hexec : exec i s = .next t) : t.Wf := by
  obtain ⟨-, he⟩ | ⟨-, -, he⟩ := exec_cases i s <;> rw [he] at hexec <;> cases hexec
  · exact (hostOp_wf hwf h).answer _
  · exact h.answer _

/-- R63: a frame the decoder accepts spells a command that has a frame. -/
theorem wfWire_of_decodeFrame {p : Config.Params} {frame : List Byte} {c : Command}
    (h : decodeFrame p frame = some c) : c.wfWire = true := by
  cases frame with
  | nil => cases h
  | cons b data =>
    simp only [decodeFrame] at h
    split at h
    · cases h
    all_goals
      rw [Option.ite_none_right_eq_some, Option.some.injEq] at h
      obtain ⟨hlen, rfl⟩ := h
      simp [Command.wfWire, Command.wf, hlen]

theorem ofCommand_wf {c : Command} (h : c.wfWire = true) : (Instr.ofCommand c).wf = true := by
  cases c <;> exact h

/-- R63, R69: what a request decodes to is well formed. -/
theorem wf_of_decode {p : Config.Params} {r : Request} {i : Instr} (h : decode p r = .ok i) : i.wf = true := by
  obtain ⟨space, bytes⟩ := r
  cases space with
  | wire =>
    simp only [decode, decodeWire] at h
    split at h <;> cases h
    exact ofCommand_wf (wfWire_of_decodeFrame ‹_›)
  | op =>
    cases bytes with
    | nil => cases h
    | cons sel operands =>
      simp only [decode, decodeOp] at h
      split at h
      · cases h
      · split at h
        · split at h <;> cases h
          assumption
        · cases h

/-- R136: a request that spells no instruction is answered or stops, and changes nothing else. -/
theorem undecoded_eq_next {e : DecodeError} {s t : State} (h : undecoded e s = .next t) :
    t = s.answer (.refused .unknownOperation) := by
  cases e <;> cases h
  rfl

/-- Settles O53: serving a request keeps the shape, because what decodes is well formed, and every operation on
well-formed operands keeps the working registers in shape and releases chip-select unless it faults. -/
theorem stepKeepsStateShape : Obligations.StepKeepsStateShape := by
  intro s t h hstep
  cases hr : s.requests with
  | nil =>
    rw [step_of_no_request hr] at hstep
    cases hstep
    exact h
  | cons r rest =>
    rw [step_of_request hr] at hstep
    have h := h.setRequests rest
    cases hd : decode (s.setRequests rest).params r with
    | ok i => exact exec_wf (wf_of_decode hd) h ((serveWith_of_decode_ok hd).symm.trans hstep)
    | error e =>
      rw [undecoded_eq_next ((serveWith_of_decode_error hd).symm.trans hstep)]
      exact h.answer _

end Sys2Proof.Machine

/-! ## What an operation reads

A relation between two blocks that fixes what an operation reads, and that making the same update on both
keeps, is kept by every operation, which ends the same way on both. -/

namespace Sys2Proof.Machine

/-- R16, R17, D42: a relation between two blocks that agree in mode, cache and environment, and that the same update on
both keeps.  It says nothing of the line levels, the working registers and the record. -/
structure Lockstep (R : State → State → Prop) : Prop where
  mode : ∀ {s s'}, R s s' → s.mode = s'.mode
  cfg : ∀ {s s'}, R s s' → s.cfg = s'.cfg
  exchAnswers : ∀ {s s'}, R s s' → s.exchAnswers = s'.exchAnswers
  lineAnswers : ∀ {s s'}, R s s' → s.lineAnswers = s'.lineAnswers
  draws : ∀ {s s'}, R s s' → s.draws = s'.draws
  setMode : ∀ {s s'} m, R s s' → R (s.setMode m) (s'.setMode m)
  setCfg : ∀ {s s'} c, R s s' → R (s.setCfg c) (s'.setCfg c)
  setLine : ∀ {s s'} l b, R s s' → R (s.setLine l b) (s'.setLine l b)
  setLive : ∀ {s s'} b, R s s' → R (s.setLive b) (s'.setLive b)
  setFault : ∀ {s s'} b, R s s' → R (s.setFault b) (s'.setFault b)
  setBuf : ∀ {s s'} bytes n, R s s' → R (s.setBuf bytes n) (s'.setBuf bytes n)
  setTemps : ∀ {s s'} old new, R s s' → R (s.setTemps old new) (s'.setTemps old new)
  record : ∀ {s s'} e, R s s' → R (s.record e) (s'.record e)
  setExchAnswers : ∀ {s s'} xs, R s s' → R (s.setExchAnswers xs) (s'.setExchAnswers xs)
  setLineAnswers : ∀ {s s'} xs, R s s' → R (s.setLineAnswers xs) (s'.setLineAnswers xs)
  draw : ∀ {s s'}, R s s' → R s.draw s'.draw

/-- Two ends of an operation: the same result or the same early end, in related states. -/
inductive Twin (R : State → State → Prop) {α : Type} : Res α → Res α → Prop where
  | done (a : α) {t t' : State} (h : R t t') : Twin R (.done a t) (.done a t')
  | stop (e : Early) {t t' : State} (h : R t t') : Twin R (.stop e t) (.stop e t')

namespace Twin

variable {R R' : State → State → Prop} {α β : Type}

theorem state {r r' : Res α} (h : Twin R r r') : R r.state r'.state := by
  cases h <;> assumption

theorem outcome {r r' : Res Value} (h : Twin R r r') : r.outcome = r'.outcome := by
  cases h <;> rfl

theorem mono (hR : ∀ {t t'}, R t t' → R' t t') {r r' : Res α} (h : Twin R r r') : Twin R' r r' := by
  cases h with
  | done a h => exact .done a (hR h)
  | stop e h => exact .stop e (hR h)

theorem andThen {r r' : Res α} {f f' : α → State → Res β} (first : Twin R r r')
    (second : ∀ a {t t'}, R t t' → Twin R (f a t) (f' a t')) : Twin R (r.andThen f) (r'.andThen f') := by
  cases first with
  | done a h => exact second a h
  | stop e h => exact .stop e h

/-- A result that is only wrapped. -/
theorem map {r r' : Res α} (g : α → β) (h : Twin R r r') :
    Twin R (r.andThen fun a t => .done (g a) t) (r'.andThen fun a t => .done (g a) t) :=
  h.andThen fun a _ _ h => .done (g a) h

/-- A test that comes out the same for both blocks. -/
theorem ite {c c' : Prop} [Decidable c] [Decidable c'] (hc : c ↔ c') {r₁ r₂ r₁' r₂' : Res α} (h₁ : Twin R r₁ r₁')
    (h₂ : Twin R r₂ r₂') : Twin R (if c then r₁ else r₂) (if c' then r₁' else r₂') := by
  by_cases h : c
  · rwa [if_pos h, if_pos (hc.1 h)]
  · rwa [if_neg h, if_neg (mt hc.2 h)]

end Twin

namespace Lockstep

variable {R : State → State → Prop} {p : Config.Params} {s s' : State}

/-- The relation, of two blocks that hold the same buffer too; inside a transaction they do, because it allocates a
fresh one. -/
structure WithBuffer (R : State → State → Prop) (s s' : State) : Prop where
  rel : R s s'
  buf : s.buf = s'.buf
  len : s.len = s'.len

theorem withBuffer (L : Lockstep R) : Lockstep (WithBuffer R) where
  mode h := L.mode h.rel
  cfg h := L.cfg h.rel
  exchAnswers h := L.exchAnswers h.rel
  lineAnswers h := L.lineAnswers h.rel
  draws h := L.draws h.rel
  setMode m h := ⟨L.setMode m h.rel, h.buf, h.len⟩
  setCfg c h := ⟨L.setCfg c h.rel, h.buf, h.len⟩
  setLine l b h := ⟨L.setLine l b h.rel, by simp [h.buf], by simp [h.len]⟩
  setLive b h := ⟨L.setLive b h.rel, h.buf, h.len⟩
  setFault b h := ⟨L.setFault b h.rel, h.buf, h.len⟩
  setBuf bytes n h := ⟨L.setBuf bytes n h.rel, rfl, rfl⟩
  setTemps old new h := ⟨L.setTemps old new h.rel, h.buf, h.len⟩
  record e h := ⟨L.record e h.rel, h.buf, h.len⟩
  setExchAnswers xs h := ⟨L.setExchAnswers xs h.rel, h.buf, h.len⟩
  setLineAnswers xs h := ⟨L.setLineAnswers xs h.rel, h.buf, h.len⟩
  draw h := ⟨L.draw h.rel, h.buf, h.len⟩

/-! ### The environment and the primitives -/

theorem nextLine (L : Lockstep R) (h : R s s') : s.nextLine.1 = s'.nextLine.1 ∧ R s.nextLine.2 s'.nextLine.2 := by
  have hlines := L.lineAnswers h
  cases hs : s.lineAnswers with
  | nil =>
    rw [nextLine_nil hs, nextLine_nil (hlines ▸ hs), L.draws h]
    exact ⟨rfl, L.draw h⟩
  | cons ok rest =>
    rw [nextLine_cons hs, nextLine_cons (hlines ▸ hs)]
    exact ⟨rfl, L.setLineAnswers rest h⟩

theorem nextAnswer (L : Lockstep R) (n : Nat) (h : R s s') :
    (s.nextAnswer n).1 = (s'.nextAnswer n).1 ∧ R (s.nextAnswer n).2 (s'.nextAnswer n).2 := by
  unfold State.nextAnswer
  rw [← L.exchAnswers h, ← L.draws h]
  split
  · exact ⟨rfl, L.setExchAnswers _ h⟩
  · exact ⟨rfl, L.setExchAnswers _ h⟩
  · split <;> exact ⟨rfl, L.draw h⟩

theorem raise (L : Lockstep R) {α : Type} (r : FaultReason) (h : R s s') : Twin R (raise r s : Res α) (raise r s') :=
  .stop _ (L.setFault true h)

theorem pin (L : Lockstep R) (l : Line) (b : Bool) (h : R s s') : Twin R (pin l b s) (pin l b s') := by
  obtain ⟨hok, hnext⟩ := L.nextLine h
  have written := L.record (.pinWrite l b) (L.setLine l b hnext)
  exact .ite (Bool.eq_iff_iff.1 hok) (.done () written) (L.raise _ written)

theorem exchange (L : Lockstep R) (tx : List Byte) (h : R s s') :
    (exchange tx s).1 = (exchange tx s').1 ∧ R (exchange tx s).2 (exchange tx s').2 := by
  obtain ⟨hanswer, hnext⟩ := L.nextAnswer tx.length h
  refine ⟨hanswer, ?_⟩
  simp only [Machine.exchange, hanswer]
  exact L.record _ hnext

/-! ### The transaction -/

theorem allocBuf (L : Lockstep R) (frame : List Byte) (h : R s s') :
    WithBuffer R (s.allocBuf frame) (s'.allocBuf frame) := by
  have hdraws := L.draws h
  refine ⟨?_, by simp [State.allocBuf, hdraws], rfl⟩
  simp only [State.allocBuf, hdraws]
  exact L.draw (L.setBuf _ _ h)

theorem loseBuf (L : Lockstep R) (h : WithBuffer R s s') : WithBuffer R s.loseBuf s'.loseBuf := by
  simp only [State.loseBuf, L.draws h.rel, h.len]
  exact L.withBuffer.draw (L.withBuffer.setBuf _ _ h)

theorem fillRegion (L : Lockstep R) (rx : List Byte) (h : WithBuffer R s s') :
    WithBuffer R (s.fillRegion rx) (s'.fillRegion rx) := by
  simp only [State.fillRegion, h.buf, h.len]
  exact L.withBuffer.setBuf _ _ h

theorem WithBuffer.region (h : WithBuffer R s s') : s.region = s'.region := by
  simp only [State.region, h.buf, h.len]

theorem closeTransaction (L : Lockstep R) (c : Command) (r : Answer) (h : WithBuffer R s s') :
    Twin (WithBuffer R) (closeTransaction c r s) (closeTransaction c r s') := by
  cases r with
  | err e => exact (L.withBuffer.pin .csn true (L.loseBuf h)).andThen fun _ _ _ h => .stop _ h
  | ok rx =>
    refine (L.withBuffer.pin .csn true h).andThen fun _ t t' h => ?_
    have filled := L.fillRegion rx h
    simp only [filled.buf, filled.region]
    exact .done _ filled

/-- R20, R100: all that a transaction reads of the buffer is what it has put there. -/
theorem transact (L : Lockstep R) (p : Config.Params) (c : Command) (h : R s s') :
    Twin R (transact p c s) (transact p c s') := by
  refine .ite Iff.rfl (L.raise _ h) (Twin.mono WithBuffer.rel ?_)
  refine (L.withBuffer.pin .csn false (L.allocBuf (encodeFrame p c) h)).andThen fun _ t t' h => ?_
  obtain ⟨hanswer, hnext⟩ := L.withBuffer.exchange t.region h
  simp only [← h.region, ← hanswer]
  exact L.closeTransaction c _ hnext

/-! ### The Transport -/

theorem readRegister (L : Lockstep R) (p : Config.Params) (a : RegAddr) (w : Nat) (h : R s s') :
    Twin R (opReadRegister p a w s) (opReadRegister p a w s') := (L.transact p _ h).map _

theorem writeRegister (L : Lockstep R) (p : Config.Params) (a : RegAddr) (w : Nat) (v : List Byte) (h : R s s') :
    Twin R (opWriteRegister p a w v s) (opWriteRegister p a w v s') := (L.transact p _ h).map _

theorem sendCommand (L : Lockstep R) (p : Config.Params) (c : Command) (h : R s s') :
    Twin R (opSendCommand p c s) (opSendCommand p c s') := (L.transact p _ h).map _

theorem isConnected (L : Lockstep R) (p : Config.Params) (h : R s s') :
    Twin R (opIsConnected p s) (opIsConnected p s') := (L.readRegister p _ 1 h).map _

theorem updateRegister (L : Lockstep R) (p : Config.Params) (a : RegAddr) (w : Nat) (m : Mutator) (h : R s s') :
    Twin R (opUpdateRegister p a w m s) (opUpdateRegister p a w m s') :=
  .ite Iff.rfl (L.raise _ h) <|
    (L.readRegister p a w h).andThen fun x _ _ h =>
      have h := L.setTemps x.2 (evalMutator m x.2).1 h
      .ite Iff.rfl ((L.writeRegister p a w _ h).map _) (.done _ h)

theorem updateConfigWith (L : Lockstep R) (p : Config.Params) (m : Byte → Byte × MutResult) (h : R s s') :
    Twin R (updateConfigWith p m s) (updateConfigWith p m s') := by
  simp only [Machine.updateConfigWith, L.cfg h]
  have h := L.setCfg (m s'.cfg).1 (L.setTemps [s'.cfg] [(m s'.cfg).1] h)
  exact .ite Iff.rfl ((L.writeRegister p _ 1 _ h).map _) (.done _ h)

/-! ### The mode machine -/

theorem enterTx (L : Lockstep R) (p : Config.Params) (h : R s s') : Twin R (opEnterTx p s) (opEnterTx p s') :=
  .ite (by rw [L.mode h]) (.done () h) <|
    (L.pin .ce false h).andThen fun _ _ _ h =>
      (L.updateConfigWith p _ h).andThen fun _ _ _ h => .done () (L.setMode .tx h)

theorem pollFifo (L : Lockstep R) (p : Config.Params) (h : R s s') : Twin R (pollFifo p s) (pollFifo p s') :=
  (L.readRegister p _ 1 h).map _

theorem discardStuck (L : Lockstep R) (p : Config.Params) (h : R s s') :
    Twin R (discardStuck p s) (discardStuck p s') :=
  (L.transact p .flushTx h).andThen fun _ _ _ h =>
    (L.writeRegister p _ 1 _ h).andThen fun _ _ _ h => .stop .wouldBlock h

theorem waitTxReady (L : Lockstep R) (p : Config.Params) (h : R s s') :
    Twin R (opWaitTxReady p s) (opWaitTxReady p s') :=
  (L.enterTx p h).andThen fun _ _ _ h => (L.pollFifo p h).andThen fun _ _ _ h =>
    .ite Iff.rfl (L.discardStuck p h) <| .ite Iff.rfl (.stop .wouldBlock h) (.done () h)

theorem waitTxEmpty (L : Lockstep R) (p : Config.Params) (h : R s s') :
    Twin R (opWaitTxEmpty p s) (opWaitTxEmpty p s') :=
  (L.enterTx p h).andThen fun _ _ _ h => (L.pollFifo p h).andThen fun _ _ _ h =>
    .ite Iff.rfl (L.discardStuck p h) <| .ite Iff.rfl (.stop .wouldBlock h) (L.pin .ce false h)

theorem enterRx (L : Lockstep R) (p : Config.Params) (h : R s s') : Twin R (opEnterRx p s) (opEnterRx p s') :=
  .ite (by rw [L.mode h]) (.done () h) <|
    (L.waitTxEmpty p h).andThen fun _ _ _ h => (L.pin .ce true h).andThen fun _ _ _ h =>
      (L.updateConfigWith p _ h).andThen fun _ _ _ h => .done () (L.setMode .rx h)

theorem send (L : Lockstep R) (p : Config.Params) (packet : List Byte) (h : R s s') :
    Twin R (opSend p packet s) (opSend p packet s') :=
  .ite Iff.rfl (L.raise _ h) <|
    (L.enterTx p h).andThen fun _ _ _ h => (L.transact p _ h).andThen fun _ _ _ h => L.pin .ce true h

theorem waitRxReady (L : Lockstep R) (p : Config.Params) (h : R s s') :
    Twin R (opWaitRxReady p s) (opWaitRxReady p s') :=
  (L.enterRx p h).andThen fun _ _ _ h => (L.pollFifo p h).andThen fun _ _ _ h =>
    .ite Iff.rfl (.stop .wouldBlock h) (.done _ h)

theorem read (L : Lockstep R) (p : Config.Params) (h : R s s') : Twin R (opRead p s) (opRead p s') :=
  (L.enterRx p h).andThen fun _ _ _ h => (L.transact p _ h).andThen fun _ _ _ h =>
    .ite Iff.rfl (L.raise _ h) ((L.transact p _ h).map _)

theorem clearInterrupts (L : Lockstep R) (p : Config.Params) (h : R s s') :
    Twin R (opClearInterrupts p s) (opClearInterrupts p s') := (L.writeRegister p _ 1 _ h).map _

/-! ### Construction -/

theorem runBatchOp (L : Lockstep R) (p : Config.Params) (op : BatchOp) (h : R s s') :
    Twin R (runBatchOp p op s) (runBatchOp p op s') := by
  cases op with
  | writeRegister a w v => exact (L.writeRegister p a w v h).map _
  | updateRegister a w f => exact (L.updateRegister p a w f h).map _
  | updateConfig f => exact (L.updateConfigWith p _ h).map _
  | sendCommand c => exact (L.transact p c h).map _

theorem runBatch (L : Lockstep R) (p : Config.Params) (batch : List BatchOp) (h : R s s') :
    Twin R (runBatch p batch s) (runBatch p batch s') := by
  induction batch generalizing s s' with
  | nil => exact .done () h
  | cons op ops ih => exact (L.runBatchOp p op h).andThen fun _ _ _ h => ih h

theorem checkThenRunBatch (L : Lockstep R) (p : Config.Params) (batch : List BatchOp) (h : R s s') :
    Twin R (checkThenRunBatch p batch s) (checkThenRunBatch p batch s') :=
  (L.isConnected p (L.setMode .standby (L.setCfg _ h))).andThen fun _ _ _ h =>
    .ite Iff.rfl (L.runBatch p batch h) (.stop .notConnected h)

theorem constructBody (L : Lockstep R) (p : Config.Params) (batch : List BatchOp) (h : R s s') :
    Twin R (constructBody p batch s) (constructBody p batch s') :=
  (L.pin .ce false (L.setFault false (L.setLive false h))).andThen fun _ _ _ h =>
    (L.pin .csn true h).andThen fun _ _ _ h => L.checkThenRunBatch p batch h

theorem forgetWorking (L : Lockstep R) (h : R s s') : R s.forgetWorking s'.forgetWorking := by
  simp only [State.forgetWorking, L.draws h]
  exact L.draw (L.draw (L.draw (L.setTemps _ _ (L.setBuf _ _ h))))

theorem forgetModeCfg (L : Lockstep R) (h : R s s') : R s.forgetModeCfg s'.forgetModeCfg := by
  simp only [State.forgetModeCfg, L.draws h]
  exact L.draw (L.setCfg _ (L.setMode _ h))

theorem construct (L : Lockstep R) (p : Config.Params) (batch : List BatchOp) (h : R s s') :
    Twin R (opConstruct p batch s) (opConstruct p batch s') := by
  have body := L.constructBody p batch h
  unfold opConstruct
  generalize Machine.constructBody p batch s = r, Machine.constructBody p batch s' = r' at body ⊢
  cases body with
  | done a h => exact .done _ (L.forgetWorking (L.setLive true h))
  | stop e h => exact .stop e (L.forgetModeCfg (L.forgetWorking h))

/-! ### Every instruction -/

theorem hostOp (L : Lockstep R) (p : Config.Params) (i : Instr) (h : R s s') :
    Twin R (hostOp p i s) (hostOp p i s') := by
  cases i with
  | construct batch => exact L.construct p batch h
  | wireReadRegister a w => exact L.sendCommand p _ h
  | wireWriteRegister a w v => exact L.sendCommand p _ h
  | wireReadRxPayload n => exact L.sendCommand p _ h
  | wireReadRxPayloadWidth => exact L.sendCommand p _ h
  | wireWriteTxPayload d => exact L.sendCommand p _ h
  | wireFlushTx => exact L.sendCommand p _ h
  | wireFlushRx => exact L.sendCommand p _ h
  | wireActivate => exact L.sendCommand p _ h
  | ceEnable => exact (L.pin .ce true h).map _
  | ceDisable => exact (L.pin .ce false h).map _
  | sendCommand c => exact L.sendCommand p c h
  | writeRegister a w v => exact (L.writeRegister p a w v h).map _
  | readRegister a w => exact (L.readRegister p a w h).map _
  | updateRegister a w f => exact (L.updateRegister p a w f h).map _
  | updateConfig f => exact (L.updateConfigWith p _ h).map _
  | isConnected => exact (L.isConnected p h).map _
  | enterRx => exact (L.enterRx p h).map _
  | enterTx => exact (L.enterTx p h).map _
  | send packet => exact (L.send p packet h).map _
  | waitTxReady => exact (L.waitTxReady p h).map _
  | waitTxEmpty => exact (L.waitTxEmpty p h).map _
  | waitRxReady => exact (L.waitRxReady p h).map _
  | read => exact (L.read p h).map _
  | clearInterrupts => exact (L.clearInterrupts p h).map _

end Lockstep

/-! ## What nothing reads -/

/-- From `s` and `s'` two operations are at `t` and `t'`: the blocks differ in nothing a rule reads, both have
performed the same events, and neither has been answered. -/
structure Alongside (s s' t t' : State) : Prop where
  same : SameButUnread t t'
  outcomes : t.outcomes = s.outcomes
  outcomes' : t'.outcomes = s'.outcomes
  trace : ∃ events, t.trace = s.trace ++ events ∧ t'.trace = s'.trace ++ events

theorem Alongside.start {s s' : State} (h : SameButUnread s s') : Alongside s s' s s' :=
  ⟨h, rfl, rfl, [], by simp⟩

theorem alongside_lockstep (s s' : State) : Lockstep (Alongside s s') where
  mode h := h.same.mode
  cfg h := h.same.cfg
  exchAnswers h := h.same.exchAnswers
  lineAnswers h := h.same.lineAnswers
  draws h := h.same.draws
  setMode _ h := { h with same := { h.same with mode := rfl } }
  setCfg _ h := { h with same := { h.same with cfg := rfl } }
  setLine l _ h := by cases l <;> exact { h with same := { h.same with } }
  setLive _ h := { h with same := { h.same with live := rfl } }
  setFault _ h := { h with same := { h.same with fault := rfl } }
  setBuf _ _ h := { h with same := { h.same with } }
  setTemps _ _ h := { h with same := { h.same with } }
  record e h :=
    { h with
      same := { h.same with }
      trace := by
        obtain ⟨events, ht, ht'⟩ := h.trace
        exact ⟨events ++ [e], by simp [ht], by simp [ht']⟩ }
  setExchAnswers _ h := { h with same := { h.same with exchAnswers := rfl } }
  setLineAnswers _ h := { h with same := { h.same with lineAnswers := rfl } }
  draw h := { h with same := { h.same with draws := congrArg (· + 1) h.same.draws } }

/-- The same outcome is answered on both. -/
theorem Alongside.answer {s s' t t' : State} (h : Alongside s s' t t') (o : OpOutcome) :
    SameButUnread (t.answer o) (t'.answer o) ∧ ∃ (o' : OpOutcome) (events : List Event),
      (t.answer o).outcomes = s.outcomes ++ [o'] ∧ (t'.answer o).outcomes = s'.outcomes ++ [o'] ∧
      (t.answer o).trace = s.trace ++ events ∧ (t'.answer o).trace = s'.trace ++ events := by
  obtain ⟨events, ht, ht'⟩ := h.trace
  exact ⟨{ h.same with }, o, events, by simp [h.outcomes], by simp [h.outcomes'], ht, ht'⟩

/-- R98, R156: when the host port performs the operation. -/
theorem exec_served {i : Instr} {s : State} (h : (∃ batch, i = .construct batch) ∨ Ready s) :
    exec i s = .next (hostOp s.params i s).finish := by
  obtain ⟨batch, rfl⟩ | hready := h
  · rfl
  · exact exec_ready hready

/-- R136: when it refuses. -/
theorem exec_refused {i : Instr} {s : State} (h : ¬ ((∃ batch, i = .construct batch) ∨ Ready s)) :
    exec i s = .next (s.answer (.refused .notLive)) := by
  rw [exec_eq_hostPort (fun batch hi => h (.inl ⟨batch, hi⟩)), hostPort_refuses _ fun hready => h (.inr hready)]

theorem SameButUnread.ready_iff {s s' : State} (h : SameButUnread s s') : Ready s ↔ Ready s' := by
  rw [Ready, Ready, h.live, h.fault]

/-- Settles O55: both blocks serve the operation or both refuse it, and operations keep such blocks in lockstep. -/
theorem unreadStateHasNoEffect : Obligations.UnreadStateHasNoEffect := by
  intro i s s' t t' h ht ht'
  have started := Alongside.start h
  by_cases hserved : (∃ batch, i = .construct batch) ∨ Ready s
  · have twin := (alongside_lockstep s s').hostOp s.params i started
    rw [exec_served hserved] at ht
    rw [exec_served (by rwa [← h.ready_iff]), ← h.params] at ht'
    cases ht
    cases ht'
    rw [Res.finish, Res.finish, ← twin.outcome]
    exact twin.state.answer _
  · rw [exec_refused hserved] at ht
    rw [exec_refused (by rwa [← h.ready_iff])] at ht'
    cases ht
    cases ht'
    exact started.answer _

end Sys2Proof.Machine

/-! ## The sticky fault bit and `live` -/

namespace Sys2Proof.Machine

/-- R134: the early end is a fault. -/
def EndsInFault (e : Option Early) : Prop := ∃ r, e = some (.fault r)

/-- R18, R19, R134: `live` stays, and the fault bit is set exactly by ending in a fault. -/
structure TracksFault (s : State) (e : Option Early) (t : State) : Prop where
  live : t.live = s.live
  fault : t.fault = true ↔ s.fault = true ∨ EndsInFault e

theorem not_endsInFault_none : ¬ EndsInFault none := nofun

theorem endsInFault_fault (r : FaultReason) : EndsInFault (some (.fault r)) := ⟨r, rfl⟩

theorem TracksFault.of_raise {s t : State} {r : FaultReason} (hl : t.live = s.live) (hf : t.fault = true) :
    TracksFault s (some (.fault r)) t :=
  ⟨hl, iff_of_true hf (.inr (endsInFault_fault r))⟩

theorem TracksFault.of_other {s t : State} {e : Option Early} (hl : t.live = s.live) (hf : t.fault = s.fault)
    (he : ¬ EndsInFault e) : TracksFault s e t :=
  ⟨hl, by rw [hf, or_iff_left he]⟩

theorem TracksFault.trans {s t u : State} {e : Option Early} (h : TracksFault s none t) (h' : TracksFault t e u) :
    TracksFault s e u :=
  ⟨h'.live.trans h.live, by rw [h'.fault, h.fault, or_iff_left not_endsInFault_none]⟩

theorem pin_tracksFault (l : Line) (b : Bool) (s : State) : Holds TracksFault s (pin l b s) := by
  obtain ⟨s1, hs1, hend⟩ := pin_cases l b s
  have hlive : s1.live = s.live := by obtain rfl | ⟨rest, rfl⟩ := hs1 <;> rfl
  have hfault : s1.fault = s.fault := by obtain rfl | ⟨rest, rfl⟩ := hs1 <;> rfl
  obtain hend | hend := hend <;> rw [hend]
  · exact .of_other (by simpa using hlive) (by simpa using hfault) not_endsInFault_none
  · exact .of_raise (by simpa using hlive) rfl

theorem transact_tracksFault (p : Config.Params) (c : Command) (s : State) : Holds TracksFault s (transact p c s) := by
  obtain ⟨-, h⟩ | ⟨-, t, -, ⟨hc, -, hf, h⟩ | ⟨r, -, hc, -, ⟨hf, h⟩ | ⟨hf, ⟨e, -, h⟩ | ⟨rx, -, h⟩⟩⟩⟩ :=
    transact_cases p c s <;> rw [h]
  · exact .of_raise rfl rfl
  · exact .of_raise hc.live hf
  · exact .of_raise hc.live hf
  · exact .of_other hc.live hf nofun
  · exact .of_other hc.live hf not_endsInFault_none

theorem tracksFault_portSteps (p : Config.Params) : PortSteps p False TracksFault where
  refl _ := .of_other rfl rfl not_endsInFault_none
  trans := .trans
  transact c s _ := transact_tracksFault p c s
  writeCe := pin_tracksFault .ce
  setMode _ _ := .of_other rfl rfl not_endsInFault_none
  setCfg _ _ := .of_other rfl rfl not_endsInFault_none
  setTemps _ _ _ _ := .of_other rfl rfl not_endsInFault_none
  stop _ _ he := .of_other rfl rfl fun ⟨r, hr⟩ => he r (Option.some.inj hr)
  fault _ _ := .of_raise rfl rfl

/-- R152: `construct` first clears both bits; up to its end it sets the fault bit like any other operation. -/
theorem constructBody_tracksFault (p : Config.Params) (batch : List BatchOp) (s : State) :
    Holds TracksFault ((s.setLive false).setFault false) (constructBody p batch s) := by
  have X := tracksFault_portSteps p
  exact X.sequential.andThen (pin_tracksFault .ce false _) fun _ s1 _ =>
    X.sequential.andThen (pin_tracksFault .csn true s1) fun _ s2 _ => X.checkThenRunBatch nofun s2

/-- The host is told a fault exactly when the operation ends in one. -/
theorem outcome_fault_iff (r : Res Value) : (∃ f, r.outcome = .fault f) ↔ EndsInFault r.early := by
  cases r with
  | done v s => simp [EndsInFault]
  | stop e s => cases e <;> simp [EndsInFault, Early.toOutcome]

/-- R18, R19, R152, R155: what `construct` leaves of both bits. -/
theorem opConstruct_bits (p : Config.Params) (batch : List BatchOp) (s : State) :
    ((opConstruct p batch s).state.fault = true ↔ ∃ r, (opConstruct p batch s).outcome = .fault r) ∧
    ((opConstruct p batch s).state.live = true ↔ (opConstruct p batch s).outcome = .ok .unit) := by
  rw [outcome_fault_iff]
  obtain ⟨hlive, hfault⟩ := constructBody_tracksFault p batch s
  unfold opConstruct
  split <;> rename_i hbody <;> rw [hbody] at hlive hfault
  case h_1 a t => simpa using hfault
  case h_2 e t =>
    have hend : e.toOutcome ≠ .ok .unit := by cases e <;> exact nofun
    have hlive : t.live = false := hlive
    exact ⟨by simpa using hfault, by simp [hlive, hend]⟩

/-- R12: the one outcome a served operation adds is its own. -/
theorem finish_outcome {p : Config.Params} {i : Instr} {s : State} {o : OpOutcome}
    (h : (hostOp p i s).finish.outcomes = s.outcomes ++ [o]) : o = (hostOp p i s).outcome := by
  have hkept := (onlyPerforms_updateClosed.hostOp p i s).outcomes
  simpa [Res.finish, hkept] using h.symm

/-- Settles O42: every operation tracks its faults; `construct` after it has cleared both bits. -/
theorem faultIsSticky : Obligations.FaultIsSticky := by
  intro i s t o hexec hout
  refine ⟨fun hi => ?_, ?_⟩
  · obtain ⟨-, he⟩ | ⟨-, -, he⟩ := exec_cases i s <;> rw [he] at hexec <;> cases hexec
    · obtain ⟨hlive, hfault⟩ := (tracksFault_portSteps s.params).hostOp nofun hi s
      rw [finish_outcome hout, outcome_fault_iff]
      exact ⟨hlive, hfault⟩
    · obtain rfl : .refused .notLive = o := by simpa using hout
      simp
  · rintro batch rfl
    rw [exec_construct] at hexec
    cases hexec
    rw [finish_outcome (i := .construct batch) hout]
    exact opConstruct_bits s.params batch s

/-! ## The transaction buffer -/

/-- R20, R40: the way from `s` to `t` either writes CSN or leaves the buffer and its length. -/
def SparesBuffer (s : State) (_ : Option Early) (t : State) : Prop :=
  ∃ events, t.trace = s.trace ++ events ∧
    ((∀ b, .pinWrite .csn b ∉ events) → t.len = s.len ∧ t.buf = s.buf)

theorem SparesBuffer.of_eq {s t : State} {e : Option Early} (ht : t.trace = s.trace) (hl : t.len = s.len)
    (hb : t.buf = s.buf) : SparesBuffer s e t :=
  ⟨[], by simp [ht], fun _ => ⟨hl, hb⟩⟩

theorem SparesBuffer.trans {s t u : State} {e e' : Option Early} (h : SparesBuffer s e t) (h' : SparesBuffer t e' u) :
    SparesBuffer s e' u := by
  obtain ⟨events, ht, hbuf⟩ := h
  obtain ⟨events', hu, hbuf'⟩ := h'
  refine ⟨events ++ events', by rw [hu, ht, List.append_assoc], fun hcsn => ?_⟩
  simp only [List.mem_append, not_or] at hcsn
  obtain ⟨hl, hb⟩ := hbuf fun b => (hcsn b).1
  obtain ⟨hl', hb'⟩ := hbuf' fun b => (hcsn b).2
  exact ⟨hl'.trans hl, hb'.trans hb⟩

theorem pin_ce_sparesBuffer (b : Bool) (s : State) : Holds SparesBuffer s (pin .ce b s) := by
  refine ⟨[.pinWrite .ce b], ?_⟩
  obtain ⟨s1, rfl | ⟨rest, rfl⟩, hend | hend⟩ := pin_cases .ce b s <;> rw [hend] <;>
    exact ⟨rfl, fun _ => ⟨rfl, rfl⟩⟩

/-- R100: a transaction that touches the buffer opens with a CSN write. -/
theorem transact_sparesBuffer (p : Config.Params) (c : Command) (s : State) :
    Holds SparesBuffer s (transact p c s) := by
  obtain hfault | ⟨-, -, ⟨events, hc⟩, -⟩ := transact_state p c s
  · rw [Holds, hfault]
    exact .of_eq rfl rfl rfl
  · exact ⟨_, hc.trace, fun hcsn => absurd (List.mem_cons_self ..) (hcsn false)⟩

theorem sparesBuffer_portSteps (p : Config.Params) : PortSteps p False SparesBuffer where
  refl _ := .of_eq rfl rfl rfl
  trans := .trans
  transact c s _ := transact_sparesBuffer p c s
  writeCe := pin_ce_sparesBuffer
  setMode _ _ := .of_eq rfl rfl rfl
  setCfg _ _ := .of_eq rfl rfl rfl
  setTemps _ _ _ _ := .of_eq rfl rfl rfl
  stop _ _ _ := .of_eq rfl rfl rfl
  fault _ _ := .of_eq rfl rfl rfl

/-- Settles O46: all that changes the buffer is a transaction, and one that does writes CSN first. -/
theorem onlyTransactionsTouchTheBuffer : Obligations.OnlyTransactionsTouchTheBuffer := by
  intro i s t events hi hexec htrace hcsn
  obtain ⟨-, he⟩ | ⟨-, -, he⟩ := exec_cases i s <;> rw [he] at hexec <;> cases hexec
  · obtain ⟨events', htrace', hspared⟩ := (sparesBuffer_portSteps s.params).hostOp nofun hi s
    obtain rfl : events' = events := List.append_cancel_left (htrace'.symm.trans htrace)
    obtain ⟨hlen, hbuf⟩ := hspared hcsn
    exact ⟨hlen, fun k => congrArg (·.getD k Config.DUMMY_BYTE) hbuf⟩
  · exact ⟨rfl, fun _ => rfl⟩

/-! ## Reset -/

/-- Settles O10: each field of `State.resetWith` is the value named. -/
theorem resetIsNotLive : Obligations.ResetIsNotLive :=
  ⟨fun _ => ⟨_, rfl, rfl, rfl, rfl, rfl, rfl, rfl, rfl, rfl, rfl, rfl, rfl, rfl, rfl⟩, rfl⟩

end Sys2Proof.Machine

/-! ## Byte 0 and frames

R55, R62, R63: what byte 0 spells, which frames the decoder accepts, and that it reads back the frame of every
command that has one. -/

namespace Sys2Proof

/-- R55: byte 0 of a register read is the address. -/
theorem opcodeByte_read : ∀ a : RegAddr, opcodeByte Config.DIR_READ a = a.setWidth 8 := by decide

/-- R55: byte 0 of a register write is the address with bit 5 set. -/
theorem opcodeByte_write : ∀ a : RegAddr, opcodeByte Config.DIR_WRITE a = 0x20#8 ||| a.setWidth 8 := by decide

/-- R55, R62: the direction field as match and mask over byte 0. -/
theorem dirOf_read_iff : ∀ b : Byte, dirOf b = Config.DIR_READ ↔ b &&& 0xE0#8 = 0x00#8 := by decide

theorem dirOf_write_iff : ∀ b : Byte, dirOf b = Config.DIR_WRITE ↔ b &&& 0xE0#8 = 0x20#8 := by decide

/-- R62: byte 0 meets the row of the command. -/
def CommandKind.Spelled (p : Config.Params) (b : Byte) : CommandKind → Prop
  | .readRegister => dirOf b = Config.DIR_READ
  | .writeRegister => dirOf b = Config.DIR_WRITE
  | .readRxPayload => b = p.OP_R_RX_PAYLOAD
  | .readRxPayloadWidth => b = p.OP_R_RX_PL_WID
  | .writeTxPayload => b = p.OP_W_TX_PAYLOAD
  | .flushTx => b = p.OP_FLUSH_TX
  | .flushRx => b = p.OP_FLUSH_RX
  | .activate => b = p.OP_ACTIVATE

/-- With any parameters the row that is picked is met: each branch of `kindOf` is its row's test. -/
theorem spelled_of_kindOf {p : Config.Params} {b : Byte} {k : CommandKind} (h : kindOf p b = some k) :
    k.Spelled p b := by
  unfold kindOf at h
  repeat' split at h
  all_goals cases h
  all_goals assumption

/-- R62, R64: with valid parameters the rows exclude each other, so the row that is met is picked. -/
theorem kindOf_eq_some_iff {p : Config.Params} (hp : p.Valid) {b : Byte} {k : CommandKind} :
    kindOf p b = some k ↔ k.Spelled p b := by
  refine ⟨spelled_of_kindOf, fun h => ?_⟩
  obtain ⟨hread, hwidth, hwrite, hflushTx, hflushRx, hactivate⟩ := kindOf_opcodes hp
  cases k with
  | readRegister => exact if_pos h
  | writeRegister =>
    have hdir : dirOf b = Config.DIR_WRITE := h
    simp [kindOf, hdir, show Config.DIR_WRITE ≠ Config.DIR_READ by decide]
  | readRxPayload => exact h ▸ hread
  | readRxPayloadWidth => exact h ▸ hwidth
  | writeTxPayload => exact h ▸ hwrite
  | flushTx => exact h ▸ hflushTx
  | flushRx => exact h ▸ hflushRx
  | activate => exact h ▸ hactivate

/-- R63: the lengths, byte 0 not counted, that a frame of the command may have. -/
def CommandKind.Admits (n : Nat) : CommandKind → Prop
  | .readRegister => widthOk n = true
  | .writeRegister => widthOk n = true
  | .readRxPayload => n ≤ Config.MAX_PAYLOAD
  | .readRxPayloadWidth => n = 1
  | .writeTxPayload => n ≤ Config.MAX_PAYLOAD
  | .flushTx => n = 0
  | .flushRx => n = 0
  | .activate => n = 1

/-- R63: a frame is rejected exactly when byte 0 meets no row or the row does not admit its length. -/
theorem decodeFrame_eq_none_iff {p : Config.Params} {b : Byte} {data : List Byte} :
    decodeFrame p (b :: data) = none ↔ ∀ k, kindOf p b = some k → ¬ k.Admits data.length := by
  cases hk : kindOf p b with
  | none => simp [decodeFrame, hk]
  | some k => cases k <;> simp [decodeFrame, hk, CommandKind.Admits]

/-- R54, R63: the command decoded from a frame has that frame's length. -/
theorem frameLen_of_decodeFrame {p : Config.Params} {frame : List Byte} {c : Command}
    (h : decodeFrame p frame = some c) : frameLen c = frame.length := by
  cases frame with
  | nil => cases h
  | cons b data =>
    simp only [decodeFrame] at h
    split at h
    · cases h
    all_goals
      rw [Option.ite_none_right_eq_some, Option.some.injEq] at h
      obtain ⟨hlen, rfl⟩ := h
      simp [frameLen, hlen, Nat.add_comm]

/-- R7: the buffer is one opcode byte longer than the longest payload. -/
theorem payload_fits_iff (n : Nat) : n ≤ Config.MAX_PAYLOAD ↔ 1 + n ≤ Config.BUF_LEN :=
  (Nat.add_le_add_iff_left (n := 1)).symm

/-- R54, R66, R96: the commands that have a frame are the well-formed ones that fit the buffer. -/
theorem wfWire_iff {c : Command} : c.wfWire = true ↔ c.wf = true ∧ frameLen c ≤ Config.BUF_LEN := by
  cases c with
  | readRegister a w => exact ⟨fun h => ⟨h, Machine.readRegister_short h⟩, And.left⟩
  | writeRegister a w v => exact ⟨fun h => ⟨h, Machine.writeRegister_short h⟩, And.left⟩
  | readRxPayload n => exact decide_eq_true_iff.trans ((payload_fits_iff _).trans (and_iff_right rfl).symm)
  | writeTxPayload d => exact decide_eq_true_iff.trans ((payload_fits_iff _).trans (and_iff_right rfl).symm)
  | readRxPayloadWidth => decide
  | flushTx => decide
  | flushRx => decide
  | activate => decide

/-- R64, R66: with valid parameters the frame decoder reads back the frame of every command that has one. -/
theorem decodeFrame_encodeFrame {p : Config.Params} (hp : p.Valid) {c : Command} (hwf : c.wfWire = true) :
    decodeFrame p (encodeFrame p c) = some c := by
  obtain ⟨hread, hwidth, hwrite, hflushTx, hflushRx, hactivate⟩ := kindOf_opcodes hp
  cases c with
  | readRegister a w =>
    have hw : widthOk w = true := hwf
    simp [encodeFrame, decodeFrame, kindOf_read, opcodeByte_fields, hw]
  | writeRegister a w v =>
    obtain ⟨hw, rfl⟩ : widthOk w = true ∧ v.length = w := by simpa [Command.wfWire, Command.wf] using hwf
    simp [encodeFrame, decodeFrame, kindOf_write, opcodeByte_fields, hw]
  | readRxPayload n =>
    have hn : n ≤ Config.MAX_PAYLOAD := of_decide_eq_true hwf
    simp [encodeFrame, decodeFrame, hread, hn]
  | writeTxPayload d =>
    have hd : d.length ≤ Config.MAX_PAYLOAD := of_decide_eq_true hwf
    simp [encodeFrame, decodeFrame, hwrite, hd]
  | readRxPayloadWidth => simp [encodeFrame, decodeFrame, hwidth]
  | flushTx => simp [encodeFrame, decodeFrame, hflushTx]
  | flushRx => simp [encodeFrame, decodeFrame, hflushRx]
  | activate => simp [encodeFrame, decodeFrame, hactivate]

/-- Settles O3: byte 0's fields address by address, and the rows by `kindOf_eq_some_iff`. -/
theorem opcodeMapOfByteZero : Obligations.OpcodeMapOfByteZero := by
  refine ⟨fun a => ⟨opcodeByte_read a, opcodeByte_write a, (opcodeByte_fields _ a).2, (opcodeByte_fields _ a).2⟩,
    fun p b hp => ⟨?_, ?_, ?_⟩, rfl⟩
  · exact (kindOf_eq_some_iff hp).trans (dirOf_read_iff b)
  · exact (kindOf_eq_some_iff hp).trans (dirOf_write_iff b)
  · exact ⟨kindOf_eq_some_iff hp, kindOf_eq_some_iff hp, kindOf_eq_some_iff hp, kindOf_eq_some_iff hp,
      kindOf_eq_some_iff hp, kindOf_eq_some_iff hp⟩

/-- Settles O4: the spec's list of rejections is `CommandKind.Admits` row by row. -/
theorem frameDecoderAcceptsExactly : Obligations.FrameDecoderAcceptsExactly := by
  refine ⟨fun p b data => ?_, fun p frame c h => ⟨frameLen_of_decodeFrame h, Machine.wfWire_of_decodeFrame h⟩⟩
  rw [decodeFrame_eq_none_iff]
  cases kindOf p b with
  | none => simp
  | some k => cases k <;> simp [CommandKind.Admits, Machine.widthOk_iff, Config.MAX_PAYLOAD]

/-- Settles O5, by evaluation of the decoder on each word. -/
theorem writtenWordsDecode : Obligations.WrittenWordsDecode := by
  unfold Obligations.WrittenWordsDecode
  decide

end Sys2Proof

/-! ## A command that completes

R56 to R59: `send_command` of a command and the wire command of its own are one transaction. One lemma says what
both leave, and each family of commands is a case of it. -/

namespace Sys2Proof.Machine

/-- R85, R87 to R94: a response of the frame's length is decoded from the bytes after Status. -/
theorem decodeResponse_cons {c : Command} {st : Byte} {data : List Byte} (h : 1 + data.length = frameLen c) :
    decodeResponse c (st :: data) = resultOf c data := by
  cases c with
  | readRegister a w =>
    have hw : data.length = w := Nat.add_left_cancel h
    simp [decodeResponse, resultOf, ← hw]
  | readRxPayload n =>
    have hn : data.length = n := Nat.add_left_cancel h
    simp [decodeResponse, resultOf, ← hn]
  | readRxPayloadWidth => cases data <;> rfl
  | writeRegister a w v => rfl
  | writeTxPayload d => rfl
  | flushTx => rfl
  | flushRx => rfl
  | activate => rfl

/-- R100: a ready block's transaction whose line writes succeed and whose exchange is answered in full. -/
theorem completesAs_of_command {c : Command} {i : Instr} (hi : i = .sendCommand c ∨ i = Instr.ofCommand c) {s : State}
    {st : Byte} {data : List Byte} (hready : Ready s) (hwf : c.wf = true) (hlen : frameLen c ≤ Config.BUF_LEN)
    (hdata : 1 + data.length = frameLen c) (ha : Answers s 2 [.ok (st :: data)]) :
    CompletesAs i s (encodeFrame s.params c) (st :: data) (.ok (.command st (resultOf c data))) := by
  have hrun := transact_ok (p := s.params) hwf hlen ha (by rw [List.length_cons, Nat.add_comm, hdata])
  rw [CompletesAs, exec_ready hready, hostOp_command hi, opSendCommand, hrun, decodeResponse_cons hdata]
  rfl

/-- The same for the wire command of its own and for `send_command`, where the command has a frame. -/
theorem wire_and_sendCommand_complete {c : Command} (hwire : c.wfWire = true) {s : State} {st : Byte} {data : List Byte}
    (hdata : 1 + data.length = frameLen c) (hready : Ready s) (ha : Answers s 2 [.ok (st :: data)]) :
    CompletesAs (Instr.ofCommand c) s (encodeFrame s.params c) (st :: data) (.ok (.command st (resultOf c data))) ∧
    CompletesAs (.sendCommand c) s (encodeFrame s.params c) (st :: data) (.ok (.command st (resultOf c data))) := by
  obtain ⟨hwf, hlen⟩ := wfWire_iff.1 hwire
  exact ⟨completesAs_of_command (.inr rfl) hready hwf hlen hdata ha,
    completesAs_of_command (.inl rfl) hready hwf hlen hdata ha⟩

/-- Settles O15: one transaction answered with Status alone. -/
theorem opcodeOnlyCommandsComplete : Obligations.OpcodeOnlyCommandsComplete := by
  intro s st hready ha
  obtain ⟨wireTx, sendTx⟩ := wire_and_sendCommand_complete (c := .flushTx) rfl rfl hready ha
  obtain ⟨wireRx, sendRx⟩ := wire_and_sendCommand_complete (c := .flushRx) rfl rfl hready ha
  exact ⟨wireTx, wireRx, sendTx, sendRx⟩

/-- Settles O16: one transaction answered with Status and the register's width of bytes. -/
theorem registerCommandsComplete : Obligations.RegisterCommandsComplete := by
  intro s a w st data hpos hle hdata hready ha
  have hw : widthOk w = true := widthOk_iff.2 ⟨hpos, hle⟩
  have hlen : 1 + data.length = 1 + w := congrArg (1 + ·) hdata
  rw [← opcodeByte_write, ← opcodeByte_read]
  obtain ⟨wireRead, sendRead⟩ := wire_and_sendCommand_complete (c := .readRegister a w) hw hlen hready ha
  refine ⟨wireRead, sendRead, fun v hv => ?_⟩
  have hwire : Command.wfWire (.writeRegister a w v) = true := by simp [Command.wfWire, Command.wf, hw, hv]
  exact wire_and_sendCommand_complete (c := .writeRegister a w v) hwire hlen hready ha

/-- Settles O17: one transaction answered with Status and the payload's length of bytes. -/
theorem payloadCommandsComplete : Obligations.PayloadCommandsComplete := by
  intro s d st data hle hdata hready ha
  have hlen : 1 + data.length = 1 + d.length := congrArg (1 + ·) hdata
  obtain ⟨wireRead, sendRead⟩ :=
    wire_and_sendCommand_complete (c := .readRxPayload d.length) (decide_eq_true hle) hlen hready ha
  obtain ⟨wireWrite, sendWrite⟩ :=
    wire_and_sendCommand_complete (c := .writeTxPayload d) (decide_eq_true hle) hlen hready ha
  exact ⟨wireRead, sendRead, wireWrite, sendWrite⟩

/-- Settles O18: one transaction answered with Status and one byte. -/
theorem oneByteCommandsComplete : Obligations.OneByteCommandsComplete := by
  intro s st x hready ha
  obtain ⟨wireWidth, sendWidth⟩ := wire_and_sendCommand_complete (c := .readRxPayloadWidth) rfl rfl hready ha
  obtain ⟨wireActivate, sendActivate⟩ := wire_and_sendCommand_complete (c := .activate) rfl rfl hready ha
  exact ⟨wireWidth, sendWidth, wireActivate, sendActivate⟩

/-! ## The frames on the bus -/

/-- R63, R64: the bytes are the frame of a command that a frame decoder accepts. -/
def IsCommandFrame (p : Config.Params) (tx : List Byte) : Prop :=
  ∃ c, decodeFrame p tx = some c ∧ encodeFrame p c = tx ∧ c.wfWire = true

/-- From `s` to `t` every exchange sends a command's frame. -/
def SendsCommands (p : Config.Params) (s : State) (_ : Option Early) (t : State) : Prop :=
  ∃ events, t.trace = s.trace ++ events ∧ ∀ tx r, .exchange tx r ∈ events → IsCommandFrame p tx

theorem SendsCommands.of_silent {p : Config.Params} {s t : State} {e : Option Early} (ht : t.trace = s.trace) :
    SendsCommands p s e t :=
  ⟨[], by simp [ht], by simp⟩

theorem SendsCommands.trans {p : Config.Params} {s t u : State} {e e' : Option Early} (h : SendsCommands p s e t)
    (h' : SendsCommands p t e' u) : SendsCommands p s e' u := by
  obtain ⟨events, ht, hsent⟩ := h
  obtain ⟨events', hu, hsent'⟩ := h'
  refine ⟨events ++ events', by rw [hu, ht, List.append_assoc], fun tx r hmem => ?_⟩
  exact (List.mem_append.1 hmem).elim (hsent tx r) (hsent' tx r)

theorem pin_sendsCommands (p : Config.Params) (l : Line) (b : Bool) (s : State) :
    Holds (SendsCommands p) s (pin l b s) := by
  refine ⟨[.pinWrite l b], ?_, by simp⟩
  obtain ⟨s1, rfl | ⟨rest, rfl⟩, hend | hend⟩ := pin_cases l b s <;> rw [hend] <;> simp

/-- R96, R100, R135: the events of a transaction, whichever way it ends: none, the opening alone, or all three. -/
theorem transact_events (p : Config.Params) (c : Command) (s : State) :
    ∃ events, (transact p c s).state.trace = s.trace ++ events ∧
      (events = [] ∨ frameLen c ≤ Config.BUF_LEN ∧
        (events = [.pinWrite .csn false] ∨ ∃ r, events = transactionEvents (encodeFrame p c) r)) := by
  obtain ⟨-, h⟩ | ⟨hlen, t, -, ⟨hc, -, -, h⟩ | ⟨r, -, hc, -, hend⟩⟩ := transact_cases p c s
  · exact ⟨[], by simp [h], .inl rfl⟩
  · exact ⟨_, h ▸ hc.trace, .inr ⟨hlen, .inl rfl⟩⟩
  · have hstate : (transact p c s).state = t := by
      obtain ⟨-, h⟩ | ⟨-, ⟨e, -, h⟩ | ⟨rx, -, h⟩⟩ := hend <;> rw [h] <;> rfl
    exact ⟨_, hstate ▸ hc.trace, .inr ⟨hlen, .inr ⟨r, rfl⟩⟩⟩

/-- R66, R100: a well-formed command that fits the buffer has a frame, and that is what its transaction sends. -/
theorem transact_sendsCommands {p : Config.Params} (hp : p.Valid) {c : Command} (hwf : c.wf = true) (s : State) :
    Holds (SendsCommands p) s (transact p c s) := by
  obtain ⟨events, htrace, hevents⟩ := transact_events p c s
  refine ⟨events, htrace, fun tx r hmem => ?_⟩
  obtain rfl | ⟨hlen, rfl | ⟨r', rfl⟩⟩ := hevents
  · simp at hmem
  · simp at hmem
  · obtain ⟨rfl, -⟩ : tx = encodeFrame p c ∧ r = r' := by simpa [transactionEvents] using hmem
    have hwire := wfWire_iff.2 ⟨hwf, hlen⟩
    exact ⟨c, decodeFrame_encodeFrame hp hwire, rfl, hwire⟩

theorem sendsCommands_portSteps {p : Config.Params} (hp : p.Valid) : PortSteps p True (SendsCommands p) where
  refl _ := .of_silent rfl
  trans := .trans
  transact _ s hwf := transact_sendsCommands hp (hwf trivial) s
  writeCe := pin_sendsCommands p .ce
  setMode _ _ := .of_silent rfl
  setCfg _ _ := .of_silent rfl
  setTemps _ _ _ _ := .of_silent rfl
  stop _ _ _ := .of_silent rfl
  fault _ _ := .of_silent rfl

/-- What `construct` does after its body performs no event. -/
theorem opConstruct_trace (p : Config.Params) (batch : List BatchOp) (s : State) :
    (opConstruct p batch s).state.trace = (constructBody p batch s).state.trace := by
  unfold opConstruct
  split <;> rename_i hbody <;> rw [hbody] <;> rfl

theorem opConstruct_sendsCommands {p : Config.Params} (hp : p.Valid) {batch : List BatchOp}
    (hwf : ∀ op ∈ batch, op.wf = true) (s : State) : Holds (SendsCommands p) s (opConstruct p batch s) := by
  have X := sendsCommands_portSteps hp
  have hbody : Holds (SendsCommands p) s (constructBody p batch s) := by
    refine X.sequential.update (t := (s.setLive false).setFault false) (.of_silent rfl) ?_
    exact X.sequential.andThen (pin_sendsCommands p .ce false _) fun _ s1 _ =>
      X.sequential.andThen (pin_sendsCommands p .csn true s1) fun _ s2 _ => X.checkThenRunBatch (fun _ => hwf) s2
  exact SendsCommands.trans hbody (.of_silent (opConstruct_trace p batch s))

/-- The operation of every well-formed instruction. -/
theorem hostOp_sendsCommands {p : Config.Params} (hp : p.Valid) {i : Instr} (hwf : i.wf = true) (s : State) :
    Holds (SendsCommands p) s (hostOp p i s) := by
  by_cases hi : ∃ batch, i = .construct batch
  · obtain ⟨batch, rfl⟩ := hi
    exact opConstruct_sendsCommands hp (List.all_eq_true.1 hwf) s
  · exact (sendsCommands_portSteps hp).hostOp (fun _ => hwf) (fun batch hb => hi ⟨batch, hb⟩) s

/-- Settles O49: the only exchanges are those of transactions, and a refusal makes none. -/
theorem framesOnTheBusAreCommands : Obligations.FramesOnTheBusAreCommands := by
  intro i s t events hwf hexec htrace hp tx r hmem
  obtain ⟨events', htrace', hsent⟩ : SendsCommands s.params s none t := by
    obtain ⟨-, he⟩ | ⟨-, -, he⟩ := exec_cases i s <;> rw [he] at hexec <;> cases hexec
    · exact hostOp_sendsCommands hp hwf s
    · exact .of_silent rfl
  obtain rfl : events' = events := List.append_cancel_left (htrace'.symm.trans htrace)
  exact hsent tx r hmem

end Sys2Proof.Machine

/-! ## Field access bit by bit

What reading a field sees and what writing one changes, one bit at a time; the laws of R74 compare two bytes
by these. -/

namespace Sys2Proof.Machine

/-- R73: the mask of a field inside a byte is its width in ones. -/
theorem fieldMask_toNat {hi lo : Nat} (hhi : hi ≤ 7) : (fieldMask hi lo).toNat = 2 ^ (hi - lo + 1) - 1 := by
  have hones : ∀ n ≤ 8, ((1#8 <<< n) - 1#8 : Byte).toNat = 2 ^ n - 1 := by decide
  exact hones _ (by omega)

theorem fieldMask_getLsbD {hi lo : Nat} (hhi : hi ≤ 7) (k : Nat) :
    (fieldMask hi lo).getLsbD k = decide (k < hi - lo + 1) := by
  rw [← BitVec.testBit_toNat, fieldMask_toNat hhi, Nat.testBit_two_pow_sub_one]

/-- R73: a field's value is the unsigned value of its bits. -/
theorem get_toNat (b : Byte) {hi lo : Nat} (hhi : hi ≤ 7) :
    (get b hi lo).toNat = b.toNat / 2 ^ lo % 2 ^ (hi - lo + 1) := by
  rw [get, BitVec.toNat_and, BitVec.toNat_ushiftRight, fieldMask_toNat hhi, Nat.and_two_pow_sub_one_eq_mod,
    Nat.shiftRight_eq_div_pow]

/-- R73: bit `k` of a field read. -/
theorem get_getLsbD (b : Byte) {hi lo : Nat} (hhi : hi ≤ 7) (k : Nat) :
    (get b hi lo).getLsbD k = (b.getLsbD (lo + k) && decide (k < hi - lo + 1)) := by
  rw [get, BitVec.getLsbD_and, BitVec.getLsbD_ushiftRight, fieldMask_getLsbD hhi]

/-- R74: after a write the field's bits are those of the value, and every other bit stays. -/
theorem set_getLsbD (b x : Byte) {hi lo k : Nat} (hle : lo ≤ hi) (hhi : hi ≤ 7) (hk : k < 8) :
    (set b hi lo x).getLsbD k = if lo ≤ k ∧ k ≤ hi then x.getLsbD (k - lo) else b.getLsbD k := by
  have hmask : (fieldMask hi lo <<< lo).getLsbD k = decide (lo ≤ k ∧ k ≤ hi) := by
    rw [BitVec.getLsbD_shiftLeft, fieldMask_getLsbD hhi, Bool.eq_iff_iff]
    simp only [hk, decide_true, Bool.true_and, Bool.and_eq_true, Bool.not_eq_true', decide_eq_true_eq,
      decide_eq_false_iff_not]
    omega
  simp only [set, BitVec.getLsbD_or, BitVec.getLsbD_and, BitVec.getLsbD_not, BitVec.getLsbD_shiftLeft x, hmask, hk]
  by_cases hin : lo ≤ k ∧ k ≤ hi <;> simp [hin]

/-- R74: a write keeps every bit outside its field. -/
theorem set_getLsbD_outside (b x : Byte) {hi lo k : Nat} (hle : lo ≤ hi) (hhi : hi ≤ 7) (hout : k < lo ∨ hi < k) :
    (set b hi lo x).getLsbD k = b.getLsbD k := by
  by_cases hk : k < 8
  · rw [set_getLsbD b x hle hhi hk, if_neg (by omega)]
  · rw [BitVec.getLsbD_of_ge _ _ (Nat.not_lt.1 hk), BitVec.getLsbD_of_ge _ _ (Nat.not_lt.1 hk)]

/-- R74: a field reads as it was written, when the value has no more bits than the field. -/
theorem get_set_same (b : Byte) {x : Byte} {hi lo : Nat} (hle : lo ≤ hi) (hhi : hi ≤ 7)
    (hx : x.toNat < 2 ^ (hi - lo + 1)) : get (set b hi lo x) hi lo = x := by
  apply BitVec.eq_of_getLsbD_eq
  intro k _
  rw [get_getLsbD _ hhi]
  by_cases hw : k < hi - lo + 1
  · rw [set_getLsbD b x hle hhi (by omega), if_pos (by omega), Nat.add_sub_cancel_left, decide_eq_true hw,
      Bool.and_true]
  · have hzero : x.getLsbD k = false :=
      Nat.testBit_lt_two_pow (hx.trans_le (Nat.pow_le_pow_right Nat.two_pos (Nat.not_lt.1 hw)))
    rw [hzero, decide_eq_false hw, Bool.and_false]

/-- R74: writing what a field reads changes nothing. -/
theorem set_get_same (b : Byte) {hi lo : Nat} (hle : lo ≤ hi) (hhi : hi ≤ 7) : set b hi lo (get b hi lo) = b := by
  apply BitVec.eq_of_getLsbD_eq
  intro k hk
  rw [set_getLsbD b _ hle hhi hk]
  by_cases hin : lo ≤ k ∧ k ≤ hi
  · rw [if_pos hin, get_getLsbD b hhi, Nat.add_sub_cancel' hin.1, decide_eq_true (by omega), Bool.and_true]
  · rw [if_neg hin]

/-- R74: writes of disjoint fields commute. -/
theorem set_set_comm (b x y : Byte) {hi lo hi' lo' : Nat} (hle : lo ≤ hi) (hhi : hi ≤ 7) (hle' : lo' ≤ hi')
    (hhi' : hi' ≤ 7) (hdisj : hi < lo' ∨ hi' < lo) :
    set (set b hi lo x) hi' lo' y = set (set b hi' lo' y) hi lo x := by
  apply BitVec.eq_of_getLsbD_eq
  intro k hk
  simp only [set_getLsbD _ _ hle hhi hk, set_getLsbD _ _ hle' hhi' hk]
  by_cases hin : lo ≤ k ∧ k ≤ hi
  · have hout : ¬ (lo' ≤ k ∧ k ≤ hi') := by omega
    rw [if_neg hout, if_neg hout]
  · rw [if_neg hin, if_neg hin]

/-- Settles O6: one law of R73 and R74 each. -/
theorem fieldReadWriteLaws : Obligations.FieldReadWriteLaws := by
  intro b x hi lo hle hhi hx
  exact ⟨get_toNat b hhi, get_set_same b hle hhi hx, set_get_same b hle hhi,
    fun _ hout => set_getLsbD_outside b x hle hhi hout,
    fun y _ _ hle' hhi' hdisj => set_set_comm b x y hle hhi hle' hhi' hdisj⟩

/-! ## The accessors -/

/-- R7, R73: a field that spans `n` bits reads as those bits. -/
theorem get_setWidth (b : Byte) {f : Field} {n : Nat} (hf : Config.fieldSpans f n) :
    (get b f.hi f.lo).setWidth n = b.extractLsb' f.lo n := by
  obtain ⟨hspan, hhi⟩ := hf
  apply BitVec.eq_of_getLsbD_eq
  intro k hk
  rw [BitVec.getLsbD_setWidth, get_getLsbD b (Nat.le_of_lt_succ hhi), BitVec.getLsbD_extractLsb', decide_eq_true hk,
    decide_eq_true (by omega : k < f.hi - f.lo + 1), Bool.and_true]

/-- R105: a byte is a plausible SETUP_AW value when nothing above its two low bits is set. -/
theorem plausibleAw_iff (a : Byte) : plausibleAw a = true ↔ a.extractLsb' 2 6 = 0#6 := by
  rw [plausibleAw, decide_eq_true_eq, ← BitVec.toNat_inj, BitVec.extractLsb'_toNat, Nat.shiftRight_eq_div_pow,
    Config.AW_MAX_VALID, BitVec.toNat_ofNat]
  omega

/-- R78: `ST_CLEAR_TX` has two flags set. -/
theorem stClearTx_getLsbD (p : Config.Params) {k : Nat} (hk : k < 8) :
    (stClearTx p).getLsbD k = true ↔ k = p.ST_TX_DS ∨ k = p.ST_MAX_RT := by
  rw [stClearTx, setMaxRt, setTxDs, setBit_getLsbD _ _ _ _ hk, setBit_getLsbD _ _ _ _ hk, BitVec.getLsbD_zero]
  by_cases hMaxRt : k = p.ST_MAX_RT <;> simp [hMaxRt]

/-- R78: `ST_CLEAR_ALL` has the third one set as well. -/
theorem stClearAll_getLsbD (p : Config.Params) {k : Nat} (hk : k < 8) :
    (stClearAll p).getLsbD k = true ↔ k = p.ST_TX_DS ∨ k = p.ST_MAX_RT ∨ k = p.ST_RX_DR := by
  rw [stClearAll, setRxDr, setBit_getLsbD _ _ _ _ hk]
  by_cases hRxDr : k = p.ST_RX_DR
  · simp [hRxDr]
  · rw [if_neg hRxDr, stClearTx_getLsbD p hk]
    simp [hRxDr]

/-- Settles O7: every flag is a one-bit field; validity gives the two fields their widths. -/
theorem accessorsReadTheirBits : Obligations.AccessorsReadTheirBits := by
  refine ⟨fun p hp => ?_, by decide, by decide⟩
  obtain ⟨-, -, -, -, -, -, -, -, -, hRxPNo, hAw⟩ := hp
  refine ⟨fun s => ⟨getBit_eq s _, getBit_eq s _, getBit_eq s _, get_setWidth s hRxPNo, getBit_eq s _⟩,
    fun c => ⟨getBit_eq c _, getBit_eq c _, getBit_eq c _, getBit_eq c _, getBit_eq c _, getBit_eq c _, getBit_eq c _⟩,
    fun a => ⟨get_setWidth a hAw, plausibleAw_iff a⟩,
    fun f => ⟨getBit_eq f _, getBit_eq f _, getBit_eq f _, getBit_eq f _, getBit_eq f _⟩,
    fun k hk => ⟨stClearTx_getLsbD p hk, stClearAll_getLsbD p hk⟩⟩

end Sys2Proof.Machine

/-! ## The length of a frame -/

namespace Sys2Proof.Machine

/-- Settles O2: the frame's length is `encodeFrame_length`; `frameLen` is 1 plus the operand's, row by row of R95. -/
theorem frameLengthIsOnePlusOperand : Obligations.FrameLengthIsOnePlusOperand := by
  intro p c hwf
  refine ⟨encodeFrame_length hwf, ?_⟩
  cases c with
  | readRegister a w => rfl
  | writeRegister a w v => rfl
  | readRxPayload n => rfl
  | writeTxPayload d => rfl
  | readRxPayloadWidth => rfl
  | activate => rfl
  | flushTx => rfl
  | flushRx => rfl

end Sys2Proof.Machine

/-! ## The events of an operation as a grammar

R48 and R108: whatever the environment does, the events of an operation are CE writes and transactions one behind
another, up to an early end that fits the last of them.  `Conduct` is that grammar.  Every operation is shown to keep
to it once, and what holds of all operations' events is then an induction over it. -/

namespace Sys2Proof.Machine

/-- An early end that no event leads to: neither a line write nor an exchange has failed. -/
def Early.Eventless : Early → Prop
  | .wouldBlock => True
  | .notConnected => True
  | .fault .payloadTooLong => True
  | .fault .configViaUpdateRegister => True
  | .fault (.lineWriteFailed _) => False
  | .transportFailure _ => False

/-- R54, R95: a frame is not empty, and that of a command of the right width fits the buffer. -/
def FrameFits (ok : Prop) (tx : List Byte) : Prop := 1 ≤ tx.length ∧ (ok → tx.length ≤ Config.BUF_LEN)

/-- The events of an operation, and the early end (or none) they lead to; where `ok` holds, its operands are well
formed. -/
inductive Conduct (ok : Prop) : Option Early → List Event → Prop where
  | nothing : Conduct ok none []
  | eventless {e : Early} (h : e.Eventless) : Conduct ok (some e) []
  | ceWrite {e : Option Early} {es : List Event} (b : Bool) (rest : Conduct ok e es) :
      Conduct ok e ([.pinWrite .ce b] ++ es)
  | ceWriteFails (b : Bool) : Conduct ok (some (.fault (.lineWriteFailed .ce))) [.pinWrite .ce b]
  | answered {e : Option Early} {es : List Event} {tx rx : List Byte} (fits : FrameFits ok tx)
      (full : rx.length = tx.length) (rest : Conduct ok e es) : Conduct ok e (transactionEvents tx (.ok rx) ++ es)
  | failed {tx : List Byte} {e : TransportError} (fits : FrameFits ok tx) :
      Conduct ok (some (.transportFailure e)) (transactionEvents tx (.err e))
  | openingFails : Conduct ok (some (.fault (.lineWriteFailed .csn))) [.pinWrite .csn false]
  | closingFails (tx : List Byte) (r : Answer) :
      Conduct ok (some (.fault (.lineWriteFailed .csn))) (transactionEvents tx r)

/-- An operation that goes on after another. -/
theorem Conduct.append {ok : Prop} {e e' : Option Early} {es es' : List Event} (h : Conduct ok e es) (he : e = none)
    (h' : Conduct ok e' es') : Conduct ok e' (es ++ es') := by
  induction h with
  | nothing => exact h'
  | ceWrite b _ ih => rw [List.append_assoc]; exact .ceWrite b (ih he)
  | answered fits full _ ih => rw [List.append_assoc]; exact .answered fits full (ih he)
  | eventless => cases he
  | ceWriteFails => cases he
  | failed => cases he
  | openingFails => cases he
  | closingFails => cases he

/-- From `s` to `t`, with early end `e` or none, an operation performs events that `P` admits. -/
def Performs (P : Option Early → List Event → Prop) (s : State) (e : Option Early) (t : State) : Prop :=
  ∃ events, t.trace = s.trace ++ events ∧ P e events

theorem Performs.of_silent {P : Option Early → List Event → Prop} {s t : State} {e : Option Early}
    (ht : t.trace = s.trace) (h : P e []) : Performs P s e t :=
  ⟨[], by rw [ht, List.append_nil], h⟩

theorem Performs.trans {ok : Prop} {s t u : State} {e : Option Early} (h : Performs (Conduct ok) s none t)
    (h' : Performs (Conduct ok) t e u) : Performs (Conduct ok) s e u := by
  obtain ⟨events, ht, hc⟩ := h
  obtain ⟨events', hu, hc'⟩ := h'
  exact ⟨events ++ events', by rw [hu, ht, List.append_assoc], hc.append rfl hc'⟩

/-! ### The primitives -/

/-- R11, R135: a line write performs its one event, whether or not it succeeds. -/
theorem pin_performs (l : Line) (b : Bool) (s : State) :
    ∃ t, t.trace = s.trace ++ [.pinWrite l b] ∧
      (pin l b s = .done () t ∨ pin l b s = .stop (.fault (.lineWriteFailed l)) t) := by
  obtain ⟨s1, hs1, hend⟩ := pin_cases l b s
  have htrace : s1.trace = s.trace := by obtain rfl | ⟨rest, rfl⟩ := hs1 <;> rfl
  obtain hend | hend := hend
  · exact ⟨_, by simp [htrace], .inl hend⟩
  · exact ⟨_, by simp [htrace], .inr hend⟩

theorem pin_ce_conducts (ok : Prop) (b : Bool) (s : State) : Holds (Performs (Conduct ok)) s (pin .ce b s) := by
  obtain ⟨t, htrace, hend | hend⟩ := pin_performs .ce b s <;> rw [hend]
  · exact ⟨_, htrace, .ceWrite b .nothing⟩
  · exact ⟨_, htrace, .ceWriteFails b⟩

theorem encodeFrame_fits {ok : Prop} {c : Command} (hwf : ok → c.wf = true) (hlen : frameLen c ≤ Config.BUF_LEN)
    (p : Config.Params) : FrameFits ok (encodeFrame p c) :=
  ⟨encodeFrame_pos p c, fun hok => encodeFrame_length (p := p) (hwf hok) ▸ hlen⟩

/-- R96, R100, R141 (e): the ends of a transaction are those of the grammar. -/
theorem transact_conducts {ok : Prop} (p : Config.Params) (c : Command) (s : State) (hwf : ok → c.wf = true) :
    Holds (Performs (Conduct ok)) s (transact p c s) := by
  obtain ⟨-, h⟩ | ⟨hlen, t, -, hend⟩ := transact_cases p c s
  · rw [h]
    exact .of_silent rfl (.eventless trivial)
  · have fits := encodeFrame_fits hwf hlen p
    obtain ⟨hc, -, -, h⟩ | ⟨r, hr, hc, -, ⟨-, h⟩ | ⟨-, ⟨e, rfl, h⟩ | ⟨rx, rfl, h⟩⟩⟩ := hend <;> rw [h]
    · exact ⟨_, hc.trace, .openingFails⟩
    · exact ⟨_, hc.trace, .closingFails _ r⟩
    · exact ⟨_, hc.trace, .failed fits⟩
    · exact ⟨_, hc.trace, List.append_nil (transactionEvents _ _) ▸ .answered fits (hr rx rfl) .nothing⟩

/-! ### The operations -/

theorem conducts_rxSteps (p : Config.Params) (ok : Prop) :
    RxSteps p (Performs (Conduct ok)) fun c => ok → c.wf = true where
  refl _ := .of_silent rfl .nothing
  trans := .trans
  transact := transact_conducts p
  lower := pin_ce_conducts ok false
  clearPrimRx _ := .of_silent rfl .nothing
  toTx _ := .of_silent rfl .nothing
  writeConfig _ _ := rfl
  block _ := .of_silent rfl (.eventless trivial)
  poll _ := rfl
  flush _ := rfl
  writeStatus _ _ := rfl
  raiseCe := pin_ce_conducts ok true
  setPrimRx _ := .of_silent rfl .nothing
  toRx _ := .of_silent rfl .nothing

variable {p : Config.Params} {ok : Prop}

/-- R103: what `update_register` writes back has the register's width, if its mutator is well formed. -/
theorem opUpdateRegister_conducts {a : RegAddr} {w : Nat} {f : Mutator} (hwf : ok → widthOk w = true ∧ f.wf w = true)
    (s : State) : Holds (Performs (Conduct ok)) s (opUpdateRegister p a w f s) := by
  refine opUpdateRegister_holds (conducts_rxSteps p ok).toSequential s (.of_silent rfl (.eventless trivial))
    (fun hok => (hwf hok).1) (fun st old s1 hread hok => ?_) fun _ _ _ _ => .of_silent rfl .nothing
  obtain ⟨hw, hf⟩ := hwf hok
  simp [Command.wf, hw, evalMutator_length hf (opReadRegister_done_length hw hread)]

theorem updateConfigWith_conducts (f : Byte → Byte × MutResult) (s : State) :
    Holds (Performs (Conduct ok)) s (updateConfigWith p f s) :=
  updateConfigWith_holds (conducts_rxSteps p ok).toSequential s (fun _ _ => rfl) (.of_silent rfl .nothing)

theorem runBatchOp_conducts {op : BatchOp} (hwf : ok → op.wf = true) (s : State) :
    Holds (Performs (Conduct ok)) s (runBatchOp p op s) := by
  have S := (conducts_rxSteps p ok).toSequential
  cases op with
  | writeRegister a w v => exact S.map _ (opWriteRegister_holds S hwf s)
  | updateRegister a w f =>
    exact S.map _ (opUpdateRegister_conducts (fun hok => by simpa [BatchOp.wf] using hwf hok) s)
  | updateConfig f => exact S.map _ (updateConfigWith_conducts _ s)
  | sendCommand c => exact S.map _ (S.transact c s hwf)

theorem checkThenRunBatch_conducts {batch : List BatchOp} (hwf : ok → ∀ op ∈ batch, op.wf = true) (s : State) :
    Holds (Performs (Conduct ok)) s (checkThenRunBatch p batch s) := by
  have S := (conducts_rxSteps p ok).toSequential
  refine S.update (t := (s.setCfg (constructCfg p)).setMode .standby) (.of_silent rfl .nothing) ?_
  refine S.andThen (opIsConnected_holds S (fun _ => rfl) _) fun connected s1 _ => ?_
  split
  · exact runBatch_holds S batch (fun op hop => runBatchOp_conducts fun hok => hwf hok op hop) s1
  · exact .of_silent rfl (.eventless trivial)

/-- R48: every operation of the host port but `construct` keeps to the grammar. -/
theorem hostOp_conducts {i : Instr} (hi : ∀ batch, i ≠ .construct batch) (hwf : ok → i.wf = true) (s : State) :
    Holds (Performs (Conduct ok)) s (hostOp p i s) := by
  have R := conducts_rxSteps p ok
  have S := R.toSequential
  have tooLong (t : State) : Performs (Conduct ok) t (some (.fault .payloadTooLong)) (t.setFault true) :=
    .of_silent rfl (.eventless trivial)
  cases i with
  | construct batch => exact absurd rfl (hi batch)
  | wireReadRegister a w => exact opSendCommand_holds S (c := .readRegister a w) hwf s
  | wireWriteRegister a w v => exact opSendCommand_holds S (c := .writeRegister a w v) hwf s
  | wireReadRxPayload n => exact opSendCommand_holds S (fun _ => rfl) s
  | wireReadRxPayloadWidth => exact opSendCommand_holds S (fun _ => rfl) s
  | wireWriteTxPayload d => exact opSendCommand_holds S (fun _ => rfl) s
  | wireFlushTx => exact opSendCommand_holds S (fun _ => rfl) s
  | wireFlushRx => exact opSendCommand_holds S (fun _ => rfl) s
  | wireActivate => exact opSendCommand_holds S (fun _ => rfl) s
  | sendCommand c => exact opSendCommand_holds S hwf s
  | ceEnable => exact S.map _ (pin_ce_conducts ok true s)
  | ceDisable => exact S.map _ (pin_ce_conducts ok false s)
  | writeRegister a w v => exact S.map _ (opWriteRegister_holds S hwf s)
  | readRegister a w => exact S.map _ (opReadRegister_holds S hwf s)
  | updateRegister a w f =>
    exact S.map _ (opUpdateRegister_conducts (fun hok => by simpa [Instr.wf] using hwf hok) s)
  | updateConfig f => exact S.map _ (updateConfigWith_conducts _ s)
  | isConnected => exact S.map _ (opIsConnected_holds S (fun _ => rfl) s)
  | enterTx => exact S.map _ (opEnterTx_holds R.toTxSteps s)
  | enterRx => exact S.map _ (opEnterRx_holds R s)
  | send packet => exact S.map _ (opSend_holds R.toTxSteps s (tooLong s) R.raiseCe fun _ _ => rfl)
  | waitTxReady => exact S.map _ (opWaitTxReady_holds R.toPollSteps s)
  | waitTxEmpty => exact S.map _ (opWaitTxEmpty_holds R.toPollSteps s)
  | waitRxReady => exact S.map _ (opWaitRxReady_holds R s)
  | read => exact S.map _ (opRead_holds R s tooLong (fun _ => rfl) fun _ _ _ => rfl)
  | clearInterrupts => exact S.map _ (opClearInterrupts_holds S (fun _ => rfl) s)

/-- R152: the events of `construct`: the two opening line writes, either of which may fail, and then those of an
operation like any other. -/
inductive ConstructConduct (ok : Prop) : Option Early → List Event → Prop where
  | ceWriteFails : ConstructConduct ok (some (.fault (.lineWriteFailed .ce))) [.pinWrite .ce false]
  | csnWriteFails :
      ConstructConduct ok (some (.fault (.lineWriteFailed .csn))) [.pinWrite .ce false, .pinWrite .csn true]
  | opened {e : Option Early} {es : List Event} (rest : Conduct ok e es) :
      ConstructConduct ok e ([.pinWrite .ce false, .pinWrite .csn true] ++ es)

theorem constructBody_conducts {batch : List BatchOp} (hwf : ok → ∀ op ∈ batch, op.wf = true) (s : State) :
    Holds (Performs (ConstructConduct ok)) s (constructBody p batch s) := by
  rw [constructBody_eq]
  obtain ⟨s1, htrace1, hce | hce⟩ := pin_performs .ce false ((s.setLive false).setFault false) <;> rw [hce]
  · obtain ⟨s2, htrace2, hcsn | hcsn⟩ := pin_performs .csn true s1 <;> rw [Res.andThen_done, hcsn]
    · obtain ⟨events, htrace, hc⟩ := checkThenRunBatch_conducts (p := p) hwf s2
      exact ⟨_, by simp [htrace, htrace2, htrace1], .opened hc⟩
    · exact ⟨_, by simp [htrace2, htrace1], .csnWriteFails⟩
  · exact ⟨_, htrace1, .ceWriteFails⟩

theorem opConstruct_early (p : Config.Params) (batch : List BatchOp) (s : State) :
    (opConstruct p batch s).early = (constructBody p batch s).early := by
  unfold opConstruct
  split <;> rename_i hbody <;> rw [hbody] <;> rfl

theorem opConstruct_conducts {batch : List BatchOp} (hwf : ok → ∀ op ∈ batch, op.wf = true) (s : State) :
    Holds (Performs (ConstructConduct ok)) s (opConstruct p batch s) := by
  rw [Holds, Performs, opConstruct_early, opConstruct_trace]
  exact constructBody_conducts hwf s

/-! ### The instructions -/

/-- R12: the early end an outcome tells of; a result and a refusal tell of none. -/
def OpOutcome.early : OpOutcome → Option Early
  | .ok _ => none
  | .wouldBlock => some .wouldBlock
  | .transportFailure e => some (.transportFailure e)
  | .notConnected => some .notConnected
  | .fault r => some (.fault r)
  | .refused _ => none

theorem Res.outcome_early (r : Res Value) : r.outcome.early = r.early := by
  cases r with
  | done v s => rfl
  | stop e s => cases e <;> rfl

theorem OpOutcome.early_eq_fault {o : OpOutcome} {r : FaultReason} : o.early = some (.fault r) ↔ o = .fault r := by
  cases o <;> simp [OpOutcome.early]

theorem OpOutcome.early_eq_transportFailure {o : OpOutcome} {e : TransportError} :
    o.early = some (.transportFailure e) ↔ o = .transportFailure e := by
  cases o <;> simp [OpOutcome.early]

/-- The events of a served operation meet what its run performs, with the early end its outcome tells of. -/
theorem finish_performs {P : Option Early → List Event → Prop} {i : Instr} {s : State} {o : OpOutcome}
    {events : List Event} (h : Holds (Performs P) s (hostOp p i s))
    (hout : (hostOp p i s).finish.outcomes = s.outcomes ++ [o])
    (htrace : (hostOp p i s).finish.trace = s.trace ++ events) : P o.early events := by
  obtain ⟨events', htrace', hP⟩ := h
  obtain rfl : events' = events := List.append_cancel_left (htrace'.symm.trans htrace)
  rwa [finish_outcome hout, Res.outcome_early]

section Exec

variable {i : Instr} {s t : State} {o : OpOutcome} {events : List Event}

theorem exec_conducts (hi : ∀ batch, i ≠ .construct batch) (hwf : ok → i.wf = true) (hexec : exec i s = .next t)
    (hout : t.outcomes = s.outcomes ++ [o]) (htrace : t.trace = s.trace ++ events) : Conduct ok o.early events := by
  obtain ⟨-, he⟩ | ⟨-, -, he⟩ := exec_cases i s <;> rw [he] at hexec <;> cases hexec
  · exact finish_performs (hostOp_conducts hi hwf s) hout htrace
  · obtain rfl : .refused .notLive = o := by simpa using hout
    obtain rfl : events = [] := by simpa using htrace
    exact .nothing

theorem exec_construct_conducts {batch : List BatchOp} (hwf : ok → (Instr.construct batch).wf = true)
    (hexec : exec (.construct batch) s = .next t) (hout : t.outcomes = s.outcomes ++ [o])
    (htrace : t.trace = s.trace ++ events) : ConstructConduct ok o.early events := by
  rw [exec_construct] at hexec
  cases hexec
  exact finish_performs (i := .construct batch) (opConstruct_conducts (fun hok => List.all_eq_true.1 (hwf hok)) s)
    hout htrace

end Exec

/-! ### Whole transactions -/

/-- R108: the events are whole, or, where a line write failed, cut at that write. -/
structure FramedUpTo (e : Option Early) (events : List Event) : Prop where
  whole : (∀ l, e ≠ some (.fault (.lineWriteFailed l))) → framed events = true
  cut : ∀ l, e = some (.fault (.lineWriteFailed l)) → CutAtLineWrite l events

/-- What `framed` reads past may stand in front. -/
theorem FramedUpTo.prepend {front : List Event} (hfront : ∀ rest, framed (front ++ rest) = framed rest)
    {e : Option Early} {events : List Event} (h : FramedUpTo e events) : FramedUpTo e (front ++ events) where
  whole he := by rw [hfront, h.whole he]
  cut l he := by
    obtain ⟨whole, opened, b, rfl, hwhole, hopened⟩ := h.cut l he
    exact ⟨front ++ whole, opened, b, by simp only [List.append_assoc], by rw [hfront, hwhole], hopened⟩

/-- Events that `framed` accepts, behind an early end other than a failed line write. -/
theorem FramedUpTo.of_whole {e : Option Early} {events : List Event}
    (he : ∀ l, e ≠ some (.fault (.lineWriteFailed l))) (h : framed events = true) : FramedUpTo e events :=
  ⟨fun _ => h, fun l hl => absurd hl (he l)⟩

/-- A failed line write behind nothing but the opening of its own transaction. -/
theorem FramedUpTo.of_cut {l : Line} {b : Bool} {opened : List Event}
    (h : opened = [] ∨ ∃ tx r, opened = [.pinWrite .csn false, .exchange tx r] ∧ l = .csn ∧ b = true) :
    FramedUpTo (some (.fault (.lineWriteFailed l))) (opened ++ [.pinWrite l b]) where
  whole he := absurd rfl (he l)
  cut l' hl := by
    cases hl
    exact ⟨[], opened, b, rfl, rfl, h⟩

/-- R100: `framed` reads past a transaction that is answered in full. -/
theorem framed_answered {tx rx : List Byte} (fits : FrameFits True tx) (full : rx.length = tx.length)
    (rest : List Event) : framed (transactionEvents tx (.ok rx) ++ rest) = framed rest := by
  simp [transactionEvents, framed, fits.1, fits.2 trivial, full]

/-- R100: a transaction that fails is whole as well. -/
theorem framed_failed {tx : List Byte} (fits : FrameFits True tx) (e : TransportError) :
    framed (transactionEvents tx (.err e)) = true := by
  simp [transactionEvents, framed, fits.1, fits.2 trivial]

/-- R108: the grammar's transactions are whole up to the failing line write. -/
theorem Conduct.framedUpTo {e : Option Early} {events : List Event} (h : Conduct True e events) :
    FramedUpTo e events := by
  induction h with
  | nothing => exact .of_whole nofun rfl
  | eventless he => exact .of_whole (fun l hl => by cases hl; exact he) rfl
  | ceWrite b _ ih => exact ih.prepend fun _ => by simp [framed]
  | ceWriteFails b => exact .of_cut (opened := []) (.inl rfl)
  | answered fits full _ ih => exact ih.prepend (framed_answered fits full)
  | failed fits => exact .of_whole nofun (framed_failed fits _)
  | openingFails => exact .of_cut (opened := []) (.inl rfl)
  | closingFails tx r =>
    exact .of_cut (opened := [.pinWrite .csn false, .exchange tx r]) (.inr ⟨tx, r, rfl, rfl, rfl⟩)

/-- Settles O48: by the grammar of an operation's events, in which only a failing line write cuts a transaction. -/
theorem transactionsAreFramed : Obligations.TransactionsAreFramed := by
  intro i s t o events hwf hexec hout htrace
  simp only [ne_eq, ← OpOutcome.early_eq_fault]
  refine ⟨fun hi => ?_, ?_⟩
  · have h := (exec_conducts (ok := True) hi (fun _ => hwf) hexec hout htrace).framedUpTo
    exact ⟨h.whole, h.cut⟩
  · rintro batch rfl
    generalize hearly : o.early = e
    have hc := exec_construct_conducts (ok := True) (fun _ => hwf) hexec hout htrace
    rw [hearly] at hc
    cases hc with
    | ceWriteFails => exact ⟨fun he => absurd rfl (he .ce), fun l hl => by cases hl; exact .inl ⟨rfl, rfl⟩⟩
    | csnWriteFails => exact ⟨fun he => absurd rfl (he .csn), fun l hl => by cases hl; exact .inr (.inl ⟨rfl, rfl⟩)⟩
    | opened rest =>
      have h := rest.framedUpTo
      exact ⟨fun he => ⟨_, rfl, h.whole he⟩, fun l hl => .inr (.inr ⟨_, rfl, h.cut l hl⟩)⟩

/-! ### Bus errors -/

/-- R110, R141 (e): a bus error is reported only behind its exchange and the release of chip-select, and a failed
exchange has only that release behind it, and is what ends the operation unless the release fails. -/
structure ReportsBusErrors (e : Option Early) (events : List Event) : Prop where
  behind : ∀ x, e = some (.transportFailure x) →
    ∃ before tx, events = before ++ [.exchange tx (.err x), .pinWrite .csn true]
  last : ∀ tx x, .exchange tx (.err x) ∈ events →
    (∃ before, events = before ++ [.exchange tx (.err x), .pinWrite .csn true]) ∧
    (e = some (.transportFailure x) ∨ e = some (.fault (.lineWriteFailed .csn)))

/-- Events without a failed exchange may stand in front. -/
theorem ReportsBusErrors.prepend {front : List Event} (hfront : ∀ tx x, .exchange tx (.err x) ∉ front)
    {e : Option Early} {events : List Event} (h : ReportsBusErrors e events) :
    ReportsBusErrors e (front ++ events) where
  behind x he := by
    obtain ⟨before, tx, rfl⟩ := h.behind x he
    exact ⟨front ++ before, tx, by rw [List.append_assoc]⟩
  last tx x hmem := by
    obtain ⟨⟨before, rfl⟩, he⟩ := h.last tx x ((List.mem_append.1 hmem).resolve_left (hfront tx x))
    exact ⟨⟨front ++ before, by rw [List.append_assoc]⟩, he⟩

/-- Without a failed exchange there is no bus error to report. -/
theorem ReportsBusErrors.of_none {e : Option Early} {events : List Event} (he : ∀ x, e ≠ some (.transportFailure x))
    (h : ∀ tx x, .exchange tx (.err x) ∉ events) : ReportsBusErrors e events :=
  ⟨fun x hx => absurd hx (he x), fun tx x hmem => absurd hmem (h tx x)⟩

/-- A failed exchange in the last transaction. -/
theorem ReportsBusErrors.of_failed {e : Option Early} {tx : List Byte} {x : TransportError}
    (he : e = some (.transportFailure x) ∨ e = some (.fault (.lineWriteFailed .csn))) :
    ReportsBusErrors e (transactionEvents tx (.err x)) where
  behind x' hx := by
    obtain rfl : x' = x := by simpa [hx] using he
    exact ⟨[.pinWrite .csn false], tx, rfl⟩
  last tx' x' hmem := by
    obtain ⟨rfl, rfl⟩ : tx' = tx ∧ x' = x := by simpa [transactionEvents] using hmem
    exact ⟨⟨[.pinWrite .csn false], rfl⟩, he⟩

theorem Conduct.reportsBusErrors {e : Option Early} {events : List Event} (h : Conduct ok e events) :
    ReportsBusErrors e events := by
  induction h with
  | nothing => exact .of_none nofun nofun
  | eventless he => exact .of_none (fun x hx => by cases hx; exact he) nofun
  | ceWrite b _ ih => exact ih.prepend (by simp)
  | ceWriteFails b => exact .of_none nofun (by simp)
  | answered fits full _ ih => exact ih.prepend (by simp [transactionEvents])
  | failed fits => exact .of_failed (.inl rfl)
  | openingFails => exact .of_none nofun (by simp)
  | closingFails tx r =>
    cases r with
    | ok rx => exact .of_none nofun (by simp [transactionEvents])
    | err x => exact .of_failed (.inr rfl)

theorem ConstructConduct.reportsBusErrors {e : Option Early} {events : List Event}
    (h : ConstructConduct ok e events) : ReportsBusErrors e events := by
  cases h with
  | ceWriteFails => exact .of_none nofun (by simp)
  | csnWriteFails => exact .of_none nofun (by simp)
  | opened rest => exact rest.reportsBusErrors.prepend (by simp)

/-- Settles O47: in the grammar of an operation's events nothing follows a failed transaction. -/
theorem busErrorsAreNotMasked : Obligations.BusErrorsAreNotMasked := by
  intro i s t o events hexec hout htrace
  simp only [← OpOutcome.early_eq_fault, ← OpOutcome.early_eq_transportFailure]
  have h : ReportsBusErrors o.early events := by
    by_cases hi : ∃ batch, i = .construct batch
    · obtain ⟨batch, rfl⟩ := hi
      exact (exec_construct_conducts (ok := False) nofun hexec hout htrace).reportsBusErrors
    · exact (exec_conducts (ok := False) (fun batch hb => hi ⟨batch, hb⟩) nofun hexec hout htrace).reportsBusErrors
  exact ⟨h.behind, h.last⟩

end Sys2Proof.Machine

/-! ## Operations that are one transaction

R100 to R102, R105, R119: these operations are one transaction whose Status and response make the result.  How a
transaction ends is said once for all of them. -/

namespace Sys2Proof.Machine

/-- R100: the operation of `i` is one transaction of `c`, with a result made of its Status and response. -/
def IsTransaction (p : Config.Params) (i : Instr) (c : Command) (result : Byte × Response → Value) : Prop :=
  ∀ s, hostOp p i s = (transact p c s).andThen fun x s1 => .done (result x) s1

theorem isTransaction_command {p : Config.Params} {i : Instr} {c : Command}
    (hi : i = .sendCommand c ∨ i = Instr.ofCommand c) : IsTransaction p i c fun x => .command x.1 x.2 :=
  fun s => by rw [hostOp_command hi]; rfl

theorem isTransaction_writeRegister (p : Config.Params) (a : RegAddr) (w : Nat) (v : List Byte) :
    IsTransaction p (.writeRegister a w v) (.writeRegister a w v) fun x => .status x.1 :=
  fun _ => Res.andThen_assoc ..

theorem isTransaction_readRegister (p : Config.Params) (a : RegAddr) (w : Nat) :
    IsTransaction p (.readRegister a w) (.readRegister a w) fun x => .register x.1 x.2.bytes :=
  fun _ => Res.andThen_assoc ..

theorem isTransaction_isConnected (p : Config.Params) :
    IsTransaction p .isConnected (.readRegister p.ADDR_SETUP_AW 1) fun x =>
      .bool (plausibleAw (x.2.bytes.headD 0#8)) :=
  fun s => by
    simp only [hostOp, opIsConnected, opReadRegister, Res.andThen_assoc, Res.andThen_done]

theorem isTransaction_clearInterrupts (p : Config.Params) :
    IsTransaction p .clearInterrupts (.writeRegister p.ADDR_STATUS 1 [stClearAll p]) fun _ => .unit :=
  fun s => by
    simp only [hostOp, unitOp, opClearInterrupts, opWriteRegister, Res.andThen_assoc, Res.andThen_done]

/-! ### A transaction at a failing line write -/

theorem Carries.trans {s t u : State} {es es' : List Event} (h : Carries s t es) (h' : Carries t u es') :
    Carries s u (es ++ es') where
  params := h'.params.trans h.params
  mode := h'.mode.trans h.mode
  cfg := h'.cfg.trans h.cfg
  ce := h'.ce.trans h.ce
  live := h'.live.trans h.live
  old := h'.old.trans h.old
  new := h'.new.trans h.new
  outcomes := h'.outcomes.trans h.outcomes
  requests := h'.requests.trans h.requests
  trace := by rw [h'.trace, h.trace, List.append_assoc]

/-- D31: an exchange whose answer is scripted, in full or as an error. -/
theorem exchange_scripted {s : State} {tx : List Byte} {r : Answer} {rest : List Answer}
    (hr : ∀ rx, r = .ok rx → rx.length = tx.length) (h : s.exchAnswers = r :: rest) :
    exchange tx s = (r, (s.setExchAnswers rest).record (.exchange tx r)) := by
  cases r with
  | ok rx => exact exchange_ok h (hr rx rfl)
  | err e => exact exchange_err h

theorem allocBuf_carries (s : State) (frame : List Byte) : Carries s (s.allocBuf frame) [] := by
  constructor <;> simp [State.allocBuf]

theorem loseBuf_carries (s : State) : Carries s s.loseBuf [] := by
  constructor <;> simp [State.loseBuf]

theorem exchange_carries (s : State) (frame : List Byte) (r : Answer) (rest : List Answer) :
    Carries s ((s.setExchAnswers rest).record (.exchange frame r)) [.exchange frame r] := by
  constructor <;> simp

/-- R11: a chip-select write that succeeds. -/
theorem pin_csn_succeeds (b : Bool) {s : State} {ls : List Bool} (hl : s.lineAnswers = true :: ls) :
    ∃ t, pin .csn b s = .done () t ∧ Carries s t [.pinWrite .csn b] ∧ t.lineAnswers = ls ∧
      t.exchAnswers = s.exchAnswers := by
  refine ⟨_, pin_ok .csn b hl, ?_, by simp, by simp⟩
  constructor <;> simp

/-- R135: a chip-select write that fails. -/
theorem pin_csn_fails (b : Bool) {s : State} {ls : List Bool} (hl : s.lineAnswers = false :: ls) :
    ∃ t, pin .csn b s = .stop (.fault (.lineWriteFailed .csn)) t ∧ Carries s t [.pinWrite .csn b] ∧
      t.csn = b ∧ t.fault = true ∧ t.exchAnswers = s.exchAnswers := by
  refine ⟨_, pin_fails .csn b hl, ?_, by simp, by simp, by simp⟩
  constructor <;> simp

/-- R135: a transaction whose opening line write fails makes no exchange. -/
theorem transact_opening_fails {p : Config.Params} {c : Command} {s : State} {ls : List Bool}
    (hlen : frameLen c ≤ Config.BUF_LEN) (hl : s.lineAnswers = false :: ls) :
    ∃ t, transact p c s = .stop (.fault (.lineWriteFailed .csn)) t ∧ Carries s t [.pinWrite .csn false] ∧
      t.csn = false ∧ t.fault = true ∧ t.exchAnswers = s.exchAnswers := by
  obtain ⟨t, hpin, hc, hend⟩ := pin_csn_fails false (s := s.allocBuf (encodeFrame p c)) hl
  rw [transact_eq hlen, hpin, Res.andThen_stop]
  exact ⟨t, rfl, (allocBuf_carries s _).trans hc, hend⟩

/-- R135, R141 (e): where the release of chip-select fails, the exchange's answer is lost, whatever it was. -/
theorem closeTransaction_release_fails (c : Command) (r : Answer) {s : State} {ls : List Bool}
    (hl : s.lineAnswers = false :: ls) :
    ∃ t, closeTransaction c r s = .stop (.fault (.lineWriteFailed .csn)) t ∧ Carries s t [.pinWrite .csn true] ∧
      t.csn = true ∧ t.fault = true := by
  cases r with
  | ok rx =>
    obtain ⟨t, hpin, hc, hcsn, hfault, -⟩ := pin_csn_fails true hl
    rw [closeTransaction, hpin, Res.andThen_stop]
    exact ⟨t, rfl, hc, hcsn, hfault⟩
  | err e =>
    obtain ⟨t, hpin, hc, hcsn, hfault, -⟩ := pin_csn_fails true (s := s.loseBuf) hl
    rw [closeTransaction, hpin, Res.andThen_stop]
    exact ⟨t, rfl, (loseBuf_carries s).trans hc, hcsn, hfault⟩

/-- R135, R141 (e): a transaction whose closing line write fails has made its exchange. -/
theorem transact_closing_fails {p : Config.Params} {c : Command} {s : State} {ls : List Bool} {r : Answer}
    {rest : List Answer} (hlen : frameLen c ≤ Config.BUF_LEN)
    (hr : ∀ rx, r = .ok rx → rx.length = (encodeFrame p c).length) (hl : s.lineAnswers = true :: false :: ls)
    (hx : s.exchAnswers = r :: rest) :
    ∃ t, transact p c s = .stop (.fault (.lineWriteFailed .csn)) t ∧
      Carries s t (transactionEvents (encodeFrame p c) r) ∧ t.csn = true ∧ t.fault = true := by
  obtain ⟨s1, hopen, hc1, hl1, hx1⟩ := pin_csn_succeeds false (s := s.allocBuf (encodeFrame p c)) hl
  obtain ⟨t, hclose, hc2, hend⟩ := closeTransaction_release_fails c r
    (s := (s1.setExchAnswers rest).record (.exchange (encodeFrame p c) r)) hl1
  rw [transact_eq hlen, hopen, Res.andThen_done, exchange_scripted hr (hx1.trans hx)]
  exact ⟨t, hclose, ((allocBuf_carries s _).trans hc1).trans ((exchange_carries s1 _ r rest).trans hc2), hend⟩

/-! ### How such an operation ends -/

namespace IsTransaction

variable {i : Instr} {c : Command} {s : State} {result : Byte × Response → Value}

/-- R100: answered in full. -/
theorem completesAs (h : IsTransaction s.params i c result) (hready : Ready s) (hwf : c.wf = true)
    (hlen : frameLen c ≤ Config.BUF_LEN) {st : Byte} {data : List Byte} (hdata : 1 + data.length = frameLen c)
    (ha : Answers s 2 [.ok (st :: data)]) :
    CompletesAs i s (encodeFrame s.params c) (st :: data) (.ok (result (st, resultOf c data))) := by
  have hrun := transact_ok (p := s.params) hwf hlen ha (by rw [List.length_cons, Nat.add_comm, hdata])
  rw [CompletesAs, exec_ready hready, h, hrun, decodeResponse_cons hdata]
  rfl

/-- R100, R143: answered by an error. -/
theorem endsWithBusError (h : IsTransaction s.params i c result) (hready : Ready s)
    (hlen : frameLen c ≤ Config.BUF_LEN) {e : TransportError} (ha : Answers s 2 [.err e]) : EndsWithBusError i s (encodeFrame s.params c) e := by
  rw [EndsWithBusError, exec_ready hready, h, transact_err hlen ha]
  rfl

/-- R96: a command that has no frame. -/
theorem faultsAtOnce (h : IsTransaction s.params i c result) (hready : Ready s) (hlen : Config.BUF_LEN < frameLen c) :
    FaultsAtOnce i s .payloadTooLong := by
  rw [FaultsAtOnce, exec_ready hready, h, transact_too_long hlen]
  rfl

/-- R135, R141 (e): either line write failing. -/
theorem endsAtFailedLineWrite (h : IsTransaction s.params i c result) (hready : Ready s)
    (hlen : frameLen c ≤ Config.BUF_LEN) : EndsAtFailedLineWrite i s (encodeFrame s.params c) := by
  have hexec {t : State} (ht : transact s.params c s = .stop (.fault (.lineWriteFailed .csn)) t) :
      exec i s = .next (t.answer (.fault (.lineWriteFailed .csn))) := by
    rw [exec_ready hready, h, ht]
    rfl
  constructor
  · intro hl
    obtain ⟨ls, hl⟩ := List.head?_eq_some_iff.1 hl
    obtain ⟨t, ht, hc, hcsn, hfault, hx⟩ := transact_opening_fails (p := s.params) hlen hl
    exact ⟨_, hexec ht, hc.trace, hcsn, hfault, by simp [hc.outcomes], hx, hc.params, hc.mode, hc.cfg, hc.ce, hc.live⟩
  · intro r hr hl hx
    have hl : s.lineAnswers = true :: false :: s.lineAnswers.drop 2 := by
      simpa [hl] using (List.take_append_drop 2 s.lineAnswers).symm
    obtain ⟨rest, hx⟩ := List.head?_eq_some_iff.1 hx
    obtain ⟨t, ht, hc, hcsn, hfault⟩ := transact_closing_fails hlen hr hl hx
    exact ⟨_, hexec ht, hc.trace, hcsn, hfault, by simp [hc.outcomes], hc.params, hc.mode, hc.cfg, hc.ce, hc.live⟩

end IsTransaction

/-- Settles O19: `send_command` and the wire commands are one transaction, in each way it ends. -/
theorem transactionEndsAsTheRuleSays : Obligations.TransactionEndsAsTheRuleSays := by
  intro c i s hi hready hwf
  have h := isTransaction_command (p := s.params) hi
  exact ⟨h.faultsAtOnce hready, fun hlen =>
    ⟨fun _ _ hdata => h.completesAs hready hwf hlen hdata, fun _ => h.endsWithBusError hready hlen,
      h.endsAtFailedLineWrite hready hlen⟩⟩

/-- Settles O20: one transaction, of which Status is the result. -/
theorem writeRegisterCompletes : Obligations.WriteRegisterCompletes := by
  intro s a w v hpos hle hv hready
  have hwf : Command.wf (.writeRegister a w v) = true := by simp [Command.wf, widthOk_iff.2 ⟨hpos, hle⟩, hv]
  have hlen := writeRegister_short hwf
  have h := isTransaction_writeRegister s.params a w v
  exact ⟨fun _ _ hdata => h.completesAs hready hwf hlen (congrArg (1 + ·) hdata),
    fun _ => h.endsWithBusError hready hlen, h.endsAtFailedLineWrite hready hlen⟩

/-- Settles O21: one transaction, of which Status and the bytes after it are the result. -/
theorem readRegisterCompletes : Obligations.ReadRegisterCompletes := by
  intro s a w hpos hle hready
  have hw : widthOk w = true := widthOk_iff.2 ⟨hpos, hle⟩
  have hlen := readRegister_short (a := a) hw
  have h := isTransaction_readRegister s.params a w
  exact ⟨fun _ _ hdata => h.completesAs hready hw hlen (congrArg (1 + ·) hdata),
    fun _ => h.endsWithBusError hready hlen, h.endsAtFailedLineWrite hready hlen⟩

/-- Settles O25: one read of SETUP_AW, whose one byte `plausibleAw` compares. -/
theorem isConnectedCompletes : Obligations.IsConnectedCompletes := by
  intro s hready
  have hlen := readRegister_short (a := s.params.ADDR_SETUP_AW) (w := 1) rfl
  have h := isTransaction_isConnected s.params
  exact ⟨fun st v => h.completesAs (data := [v]) hready rfl hlen rfl, fun _ => h.endsWithBusError hready hlen⟩

/-- Settles O26: one line write, which succeeds or fails. -/
theorem ceLineOperationsComplete : Obligations.CeLineOperationsComplete := by
  intro s i level hi hready
  have hop : hostOp s.params i s = (pin .ce level s).andThen fun _ s1 => .done .unit s1 := by
    obtain ⟨rfl, rfl⟩ | ⟨rfl, rfl⟩ := hi <;> rfl
  constructor
  · intro rest hl
    rw [exec_ready hready, hop, pin_ok .ce level hl]
    rfl
  · intro rest hl
    rw [exec_ready hready, hop, pin_fails .ce level hl]
    rfl

/-! ### What stays -/

/-- An observation of the state that no transaction, no fault and no answer to the host changes. -/
structure Untouched {γ : Type} (f : State → γ) : Prop where
  carries : ∀ {s t events}, Carries s t events → f t = f s
  setFault : ∀ s, f (s.setFault true) = f s
  answer : ∀ s o, f (s.answer o) = f s

namespace Untouched

variable {γ : Type} {f : State → γ} {i : Instr} {s t : State}

theorem sequential (U : Untouched f) (p : Config.Params) : Sequential p (fun s _ t => f t = f s) fun _ => True where
  refl _ := rfl
  trans h h' := h'.trans h
  transact c s _ := by
    obtain hfault | ⟨-, -, ⟨events, hc⟩, -⟩ := transact_state p c s
    · rw [Holds, hfault, U.setFault]
    · exact U.carries hc

/-- What the operation keeps, the instruction keeps. -/
theorem of_hostOp (U : Untouched f) (hop : f (hostOp s.params i s).state = f s) (hexec : exec i s = .next t) :
    f t = f s := by
  obtain ⟨-, he⟩ | ⟨-, -, he⟩ := exec_cases i s <;> rw [he] at hexec <;> cases hexec
  · rw [Res.finish, U.answer, hop]
  · exact U.answer s _

theorem of_isTransaction {c : Command} {result : Byte × Response → Value} (U : Untouched f)
    (h : IsTransaction s.params i c result) (hexec : exec i s = .next t) : f t = f s := by
  refine U.of_hostOp ?_ hexec
  rw [h]
  exact (U.sequential s.params).map result ((U.sequential s.params).transact c s trivial)

end Untouched

/-- Settles O43: each of these operations is one transaction. -/
theorem transactionFrame : Obligations.TransactionFrame := by
  intro i s t hi hexec
  have U : Untouched fun s : State => (s.mode, s.cfg, s.ce, s.live, s.old, s.new, s.requests, s.params) :=
    ⟨fun hc => by simp only [hc.mode, hc.cfg, hc.ce, hc.live, hc.old, hc.new, hc.requests, hc.params],
      fun _ => rfl, fun _ _ => rfl⟩
  suffices h : ∃ c result, IsTransaction s.params i c result by
    obtain ⟨c, result, h⟩ := h
    simpa only [Prod.mk.injEq] using U.of_isTransaction h hexec
  obtain ⟨c, hc⟩ | ⟨a, w, v, rfl⟩ | ⟨a, w, rfl⟩ | rfl | rfl := hi
  · exact ⟨c, _, isTransaction_command hc.symm⟩
  · exact ⟨_, _, isTransaction_writeRegister s.params a w v⟩
  · exact ⟨_, _, isTransaction_readRegister s.params a w⟩
  · exact ⟨_, _, isTransaction_isConnected s.params⟩
  · exact ⟨_, _, isTransaction_clearInterrupts s.params⟩

/-- Settles O44: beside their transactions both write the temporaries, and `update_config` the cache. -/
theorem readModifyWriteFrame : Obligations.ReadModifyWriteFrame := by
  constructor
  · intro a w f s t hexec
    have U : Untouched fun s : State => (s.mode, s.cfg, s.ce, s.live, s.requests, s.params) :=
      ⟨fun hc => by simp only [hc.mode, hc.cfg, hc.ce, hc.live, hc.requests, hc.params], fun _ => rfl, fun _ _ => rfl⟩
    have S := U.sequential s.params
    have hop := S.map Value.mutator <|
      opUpdateRegister_holds S (a := a) (w := w) (f := f) s rfl trivial (fun _ _ _ _ => trivial) fun _ _ _ _ => rfl
    simpa only [Prod.mk.injEq] using U.of_hostOp (i := .updateRegister a w f) hop hexec
  · intro f s t hexec
    have U : Untouched fun s : State => (s.mode, s.ce, s.live, s.requests, s.params) :=
      ⟨fun hc => by simp only [hc.mode, hc.ce, hc.live, hc.requests, hc.params], fun _ => rfl, fun _ _ => rfl⟩
    have S := U.sequential s.params
    have hop := S.map Value.mutator (updateConfigWith_holds S (f := evalMutatorByte f) s (fun _ => trivial) rfl)
    simpa only [Prod.mk.injEq] using U.of_hostOp (i := .updateConfig f) hop hexec

end Sys2Proof.Machine

/-! ## Read, modify, write

R103, R104: the two read-modify-write operations by what their transactions answer; and R109, how many exchanges they
make. -/

namespace Sys2Proof.Machine

variable {p : Config.Params} {a : RegAddr} {w : Nat} {s : State}

/-! ### The register operations in a given environment -/

theorem opReadRegister_ok (hw : widthOk w = true) {st : Byte} {v : List Byte} (hv : v.length = w)
    (ha : Answers s 2 [.ok (st :: v)]) :
    opReadRegister p a w s = .done (st, v) (s.afterTransaction (encodeFrame p (.readRegister a w)) (st :: v)) := by
  have hdata : 1 + v.length = frameLen (.readRegister a w) := congrArg (1 + ·) hv
  have hrun := transact_ok (p := p) (c := .readRegister a w) hw (readRegister_short hw) ha (hdata ▸ Nat.add_comm _ 1)
  rw [opReadRegister, hrun, decodeResponse_cons hdata]
  rfl

theorem opReadRegister_err (hw : widthOk w = true) {e : TransportError} (ha : Answers s 2 [.err e]) :
    opReadRegister p a w s =
      .stop (.transportFailure e) (s.afterFailedTransaction (encodeFrame p (.readRegister a w)) e) := by
  rw [opReadRegister, transact_err (readRegister_short hw) ha]
  rfl

theorem opWriteRegister_ok {v rx : List Byte} (hwf : Command.wf (.writeRegister a w v) = true)
    (hrx : rx.length = 1 + w) (ha : Answers s 2 [.ok rx]) :
    opWriteRegister p a w v s =
      .done (statusOf rx) (s.afterTransaction (encodeFrame p (.writeRegister a w v)) rx) := by
  rw [opWriteRegister, transact_ok hwf (writeRegister_short hwf) ha hrx]
  rfl

theorem opWriteRegister_err {v : List Byte} (hwf : Command.wf (.writeRegister a w v) = true) {e : TransportError}
    (ha : Answers s 2 [.err e]) :
    opWriteRegister p a w v s =
      .stop (.transportFailure e) (s.afterFailedTransaction (encodeFrame p (.writeRegister a w v)) e) := by
  rw [opWriteRegister, transact_err (writeRegister_short hwf) ha]
  rfl

/-- The answers left by a transaction that has taken its own. -/
theorem Answers.afterTransaction {lines : Nat} {rx frame : List Byte} {xs : List Answer}
    (ha : Answers s (2 + lines) (.ok rx :: xs)) : Answers (s.afterTransaction frame rx) lines xs :=
  ha.rest (xs := [.ok rx]) rfl ⟨rfl, rfl, rfl, rfl, rfl, rfl, rfl, rfl, rfl, rfl, rfl⟩

theorem Answers.setTemps {lines : Nat} {xs : List Answer} (ha : Answers s lines xs) (old new : List Byte) :
    Answers (s.setTemps old new) lines xs := ha

theorem Answers.setCfg {lines : Nat} {xs : List Answer} (ha : Answers s lines xs) (c : Byte) :
    Answers (s.setCfg c) lines xs := ha

/-! ### The two operations by cases -/

theorem opUpdateRegister_config (w : Nat) (f : Mutator) (s : State) :
    opUpdateRegister p p.ADDR_CONFIG w f s = .stop (.fault .configViaUpdateRegister) (s.setFault true) :=
  if_pos rfl

section UpdateRegister

variable {f : Mutator}

theorem opUpdateRegister_read_stops (ha : a ≠ p.ADDR_CONFIG) {e : Early} {s1 : State}
    (hread : opReadRegister p a w s = .stop e s1) : opUpdateRegister p a w f s = .stop e s1 := by
  rw [opUpdateRegister, if_neg ha, hread, Res.andThen_stop]

theorem opUpdateRegister_unchanged (ha : a ≠ p.ADDR_CONFIG) {st : Byte} {old : List Byte} {s1 : State}
    (hread : opReadRegister p a w s = .done (st, old) s1) (hnew : (evalMutator f old).1 = old) :
    opUpdateRegister p a w f s = .done (evalMutator f old).2 (s1.setTemps old (evalMutator f old).1) := by
  rw [opUpdateRegister, if_neg ha, hread, Res.andThen_done]
  exact if_neg (not_not_intro hnew)

theorem opUpdateRegister_changed (ha : a ≠ p.ADDR_CONFIG) {st : Byte} {old : List Byte} {s1 : State}
    (hread : opReadRegister p a w s = .done (st, old) s1) (hnew : (evalMutator f old).1 ≠ old) :
    opUpdateRegister p a w f s =
      (opWriteRegister p a w (evalMutator f old).1 (s1.setTemps old (evalMutator f old).1)).andThen
        fun _ s2 => .done (evalMutator f old).2 s2 := by
  rw [opUpdateRegister, if_neg ha, hread, Res.andThen_done]
  exact if_pos hnew

end UpdateRegister

section UpdateConfig

variable {f : Byte → Byte × MutResult}

theorem updateConfigWith_unchanged (hnew : (f s.cfg).1 = s.cfg) :
    updateConfigWith p f s = .done (f s.cfg).2 ((s.setTemps [s.cfg] [(f s.cfg).1]).setCfg (f s.cfg).1) :=
  if_neg (not_not_intro hnew)

theorem updateConfigWith_changed (hnew : (f s.cfg).1 ≠ s.cfg) :
    updateConfigWith p f s =
      (opWriteRegister p p.ADDR_CONFIG 1 [(f s.cfg).1] ((s.setTemps [s.cfg] [(f s.cfg).1]).setCfg (f s.cfg).1)).andThen
        fun _ s1 => .done (f s.cfg).2 s1 :=
  if_pos hnew

end UpdateConfig

theorem exec_updateRegister {f : Mutator} (hready : Ready s) :
    exec (.updateRegister a w f) s =
      .next ((opUpdateRegister s.params a w f s).andThen fun r s1 => .done (.mutator r) s1).finish :=
  exec_ready hready

theorem exec_updateConfig {f : Mutator} (hready : Ready s) :
    exec (.updateConfig f) s =
      .next ((updateConfigWith s.params (evalMutatorByte f) s).andThen fun r s1 => .done (.mutator r) s1).finish :=
  exec_ready hready

/-- Settles O22: the read decides whether there is a write, and either may fail. -/
theorem updateRegisterCompletes : Obligations.UpdateRegisterCompletes := by
  intro s a w f hpos hle hf hready
  have hw : widthOk w = true := widthOk_iff.2 ⟨hpos, hle⟩
  refine ⟨?_, fun hne => ⟨fun e ha => ?_, fun st old hold => ?_⟩⟩
  · rintro rfl
    rw [FaultsAtOnce, exec_updateRegister hready, opUpdateRegister_config]
    rfl
  · rw [EndsWithBusError, exec_updateRegister hready, opUpdateRegister_read_stops hne (opReadRegister_err hw ha)]
    rfl
  · have hwf : Command.wf (.writeRegister a w (evalMutator f old).1) = true := by
      simp [Command.wf, hw, evalMutator_length hf hold]
    refine ⟨fun ha hnew => ?_, fun rx hrx ha hnew => ?_, fun e ha hnew => ?_⟩
    · rw [exec_updateRegister hready, opUpdateRegister_unchanged hne (opReadRegister_ok hw hold ha) hnew]
      rfl
    · have hread := opReadRegister_ok (p := s.params) (a := a) hw hold (ha.front (xs := [_]) (by decide))
      rw [exec_updateRegister hready, opUpdateRegister_changed hne hread hnew,
        opWriteRegister_ok hwf hrx ((ha.afterTransaction (lines := 2)).setTemps _ _)]
      rfl
    · have hread := opReadRegister_ok (p := s.params) (a := a) hw hold (ha.front (xs := [_]) (by decide))
      rw [exec_updateRegister hready, opUpdateRegister_changed hne hread hnew,
        opWriteRegister_err hwf ((ha.afterTransaction (lines := 2)).setTemps _ _)]
      rfl

/-- Settles O23: the cache is changed first, and whether it changed decides whether there is a write. -/
theorem updateConfigCompletes : Obligations.UpdateConfigCompletes := by
  intro s f _ hready
  have hwf (c : Byte) : Command.wf (.writeRegister s.params.ADDR_CONFIG 1 [c]) = true := rfl
  refine ⟨fun hnew => ?_, fun rx hrx ha hnew => ?_, fun e ha hnew => ?_⟩
  · rw [exec_updateConfig hready, updateConfigWith_unchanged hnew]
    rfl
  · rw [exec_updateConfig hready, updateConfigWith_changed hnew,
      opWriteRegister_ok (hwf _) hrx ((ha.setTemps _ _).setCfg _)]
    rfl
  · rw [exec_updateConfig hready, updateConfigWith_changed hnew,
      opWriteRegister_err (hwf _) ((ha.setTemps _ _).setCfg _)]
    rfl

/-! ### How many exchanges -/

/-- From `s` to `t` there are `n` exchanges. -/
def Exchanged (n : Nat) (s t : State) : Prop := ∃ events, t.trace = s.trace ++ events ∧ exchanges events = n

theorem Exchanged.of_silent {s t : State} (h : t.trace = s.trace) : Exchanged 0 s t :=
  ⟨[], by rw [h, List.append_nil], rfl⟩

theorem Exchanged.trans {s t u : State} {m n : Nat} (h : Exchanged m s t) (h' : Exchanged n t u) :
    Exchanged (m + n) s u := by
  obtain ⟨es, ht, rfl⟩ := h
  obtain ⟨es', hu, rfl⟩ := h'
  exact ⟨es ++ es', by rw [hu, ht, List.append_assoc], List.countP_append⟩

theorem Exchanged.count {s t : State} {n : Nat} (h : Exchanged n s t) {events : List Event}
    (ht : t.trace = s.trace ++ events) : exchanges events = n := by
  obtain ⟨es, hes, rfl⟩ := h
  rw [List.append_cancel_left (ht.symm.trans hes)]

/-- R100, R108: a transaction that ends without a fault has made its exchange, be it answered or failed. -/
theorem transact_exchanged {c : Command} (h : (transact p c s).state.fault = false) :
    Exchanged 1 s (transact p c s).state := by
  obtain ⟨-, hend⟩ | ⟨-, t, -, ⟨-, -, hf, hend⟩ | ⟨r, -, hc, -, ⟨hf, hend⟩ | ⟨hf, ⟨e, -, hend⟩ | ⟨rx, -, hend⟩⟩⟩⟩ :=
    transact_cases p c s <;> rw [hend] at h ⊢
  · cases h
  · exact absurd hf (Bool.eq_false_iff.1 h)
  · exact absurd hf (Bool.eq_false_iff.1 h)
  · exact ⟨_, hc.trace, rfl⟩
  · exact ⟨_, hc.trace, rfl⟩

/-- Naming an operation's result leaves the state. -/
theorem Res.andThen_done_state {α β : Type} (r : Res α) (g : α → β) :
    (r.andThen fun x s => .done (g x) s).state = r.state := by
  cases r <;> rfl

theorem opReadRegister_exchanged (h : (opReadRegister p a w s).state.fault = false) :
    Exchanged 1 s (opReadRegister p a w s).state := by
  have hstate : (opReadRegister p a w s).state = (transact p (.readRegister a w) s).state :=
    Res.andThen_done_state (transact ..) fun x => (x.1, x.2.bytes)
  rw [hstate] at h ⊢
  exact transact_exchanged h

theorem opWriteRegister_exchanged {v : List Byte} (h : (opWriteRegister p a w v s).state.fault = false) :
    Exchanged 1 s (opWriteRegister p a w v s).state := by
  have hstate : (opWriteRegister p a w v s).state = (transact p (.writeRegister a w v) s).state :=
    Res.andThen_done_state (transact ..) Prod.fst
  rw [hstate] at h ⊢
  exact transact_exchanged h

/-- R12: what the host is told of an operation leaves the fault bit and the trace. -/
theorem fault_and_trace_of_finish {α : Type} {i : Instr} {t : State} {r : Res α} {g : α → Value}
    (hserved : exec i s = .next (r.andThen fun x s1 => .done (g x) s1).finish) (hexec : exec i s = .next t) :
    t.fault = r.state.fault ∧ t.trace = r.state.trace := by
  obtain rfl : _ = t := Host.Outcome.next.inj (hserved.symm.trans hexec)
  rw [← Res.andThen_done_state r g]
  exact ⟨rfl, rfl⟩

/-- R104, R109: `update_config` makes an exchange exactly when the value changes. -/
theorem updateConfigWith_exchanged {f : Byte → Byte × MutResult} (h : (updateConfigWith p f s).state.fault = false) :
    Exchanged (if (f s.cfg).1 = s.cfg then 0 else 1) s (updateConfigWith p f s).state := by
  split
  next hnew =>
    rw [updateConfigWith_unchanged hnew]
    exact .of_silent rfl
  next hnew =>
    rw [updateConfigWith_changed hnew, Res.andThen_done_state _ fun _ => (f s.cfg).2] at h ⊢
    exact opWriteRegister_exchanged h

/-- R103, R109: behind a read, `update_register` makes one more exchange exactly when the value changes. -/
theorem opUpdateRegister_exchanged_of_read {f : Mutator} (ha : a ≠ p.ADDR_CONFIG) {st : Byte} {old : List Byte}
    {s1 : State} (hread : opReadRegister p a w s = .done (st, old) s1) (hone : Exchanged 1 s s1)
    (h : (opUpdateRegister p a w f s).state.fault = false) :
    Exchanged (if (evalMutator f old).1 = old then 1 else 2) s (opUpdateRegister p a w f s).state := by
  have htemps : Exchanged 1 s (s1.setTemps old (evalMutator f old).1) := hone
  split
  next hnew =>
    rw [opUpdateRegister_unchanged ha hread hnew]
    exact htemps
  next hnew =>
    rw [opUpdateRegister_changed ha hread hnew, Res.andThen_done_state _ fun _ => (evalMutator f old).2] at h ⊢
    exact htemps.trans (opWriteRegister_exchanged h)

/-- R109: `update_register` of a block without a fault makes one exchange or two. -/
theorem opUpdateRegister_exchanged {f : Mutator} (hs : s.fault = false)
    (h : (opUpdateRegister p a w f s).state.fault = false) :
    Exchanged 1 s (opUpdateRegister p a w f s).state ∨ Exchanged 2 s (opUpdateRegister p a w f s).state := by
  by_cases ha : a = p.ADDR_CONFIG
  · subst ha
    rw [opUpdateRegister_config] at h
    cases h
  · have hone := opReadRegister_exchanged (p := p) (a := a) (w := w) (s := s)
    cases hread : opReadRegister p a w s with
    | stop e s1 =>
      rw [opUpdateRegister_read_stops ha hread] at h ⊢
      rw [hread] at hone
      exact .inl (hone h)
    | done x s1 =>
      obtain ⟨st, old⟩ := x
      have hfault : s1.fault = false := by
        have htracks := opReadRegister_holds (tracksFault_portSteps p).sequential (a := a) (w := w) nofun s
        rw [hread] at htracks
        simpa [hs, not_endsInFault_none] using htracks.fault
      rw [hread] at hone
      have hcount := opUpdateRegister_exchanged_of_read ha hread (hone hfault) h
      split at hcount
      · exact .inl hcount
      · exact .inr hcount

/-- Settles O24: a transaction without a fault is one exchange, and the write happens if and only if the value
changed. -/
theorem writesOnlyWhatChanged : Obligations.WritesOnlyWhatChanged := by
  refine ⟨fun s t f events hready hexec htrace hfault => ?_, fun s t a w f events hready hexec htrace hfault => ?_,
    fun s t a w f st old events hready hpos hle hold ha hexec htrace hfault => ?_⟩
  · obtain ⟨hf, ht⟩ := fault_and_trace_of_finish (exec_updateConfig hready) hexec
    rw [hf] at hfault
    rw [ht] at htrace
    exact (updateConfigWith_exchanged hfault).count htrace
  · obtain ⟨hf, ht⟩ := fault_and_trace_of_finish (exec_updateRegister hready) hexec
    rw [hf] at hfault
    rw [ht] at htrace
    exact (opUpdateRegister_exchanged hready.2 hfault).imp (·.count htrace) (·.count htrace)
  · obtain ⟨hf, ht⟩ := fault_and_trace_of_finish (exec_updateRegister hready) hexec
    rw [hf] at hfault
    rw [ht] at htrace
    have hne : a ≠ s.params.ADDR_CONFIG := by
      rintro rfl
      rw [opUpdateRegister_config] at hfault
      cases hfault
    have hread := opReadRegister_ok (p := s.params) (a := a) (widthOk_iff.2 ⟨hpos, hle⟩) hold ha
    exact (opUpdateRegister_exchanged_of_read hne hread ⟨_, rfl, rfl⟩ hfault).count htrace

/-! ## Mutators -/

/-- R99: the mutator whose table lists these inputs with the values a function has there. -/
def tabulated (inputs : List (List Byte)) (f : List Byte → List Byte × MutResult) : Mutator where
  rows := inputs.map fun v => ⟨v, (f v).1, (f v).2⟩
  edits := []
  result := .const .unit

theorem tabulated_wf {inputs : List (List Byte)} {f : List Byte → List Byte × MutResult} {w : Nat}
    (hf : ∀ v ∈ inputs, (f v).1.length = w) : (tabulated inputs f).wf w = true := by
  simpa [tabulated, Mutator.wf, MutRow.wf, ResultSel.wf] using hf

theorem evalMutator_tabulated {inputs : List (List Byte)} {v : List Byte} (hv : v ∈ inputs)
    (f : List Byte → List Byte × MutResult) : evalMutator (tabulated inputs f) v = f v := by
  have hrow : (tabulated inputs f).rows.find? (fun r => r.input == v) = some ⟨v, (f v).1, (f v).2⟩ := by
    have hfind : inputs.find? (· == v) = some v := by
      obtain ⟨u, hu⟩ := Option.isSome_iff_exists.1 (List.find?_isSome (p := (· == v)).2 ⟨v, hv, BEq.rfl⟩)
      have huv : (u == v) = true := List.find?_some (p := (· == v)) hu
      rw [hu, eq_of_beq huv]
    simp only [tabulated, List.find?_map, Function.comp_def, hfind, Option.map_some]
  rw [evalMutator, hrow]

/-- Settles O8: a register has finitely many values, so a table can list them all. -/
theorem mutatorsExpressEveryFunction : Obligations.MutatorsExpressEveryFunction := by
  intro w hw
  refine ⟨fun m v => evalMutator_length, fun f hf => ?_⟩
  have hfinite := List.finite_length_eq Byte w
  have hmem (v : List Byte) : v ∈ hfinite.toFinset.toList ↔ v.length = w := by simp
  exact ⟨tabulated hfinite.toFinset.toList f, tabulated_wf fun v hv => hf v ((hmem v).1 hv),
    fun v hv => evalMutator_tabulated ((hmem v).2 hv) f⟩

end Sys2Proof.Machine

/-! ## Operations on the bus only

R124: the operations that perform transactions and write CE nowhere, put together once for whatever fact of their runs
is wanted. -/

namespace Sys2Proof.Machine

/-- R124: the operation is made of transactions, with no write of CE and no change of mode. -/
def BusOnly : Instr → Prop
  | .wireReadRegister _ _ => True
  | .wireWriteRegister _ _ _ => True
  | .wireReadRxPayload _ => True
  | .wireReadRxPayloadWidth => True
  | .wireWriteTxPayload _ => True
  | .wireFlushTx => True
  | .wireFlushRx => True
  | .wireActivate => True
  | .sendCommand _ => True
  | .writeRegister _ _ _ => True
  | .readRegister _ _ => True
  | .updateRegister _ _ _ => True
  | .updateConfig _ => True
  | .isConnected => True
  | .clearInterrupts => True
  | .construct _ => False
  | .ceEnable => False
  | .ceDisable => False
  | .enterRx => False
  | .enterTx => False
  | .send _ => False
  | .waitTxReady => False
  | .waitTxEmpty => False
  | .waitRxReady => False
  | .read => False

/-- What a fact needs to hold of these operations; `config` says which mutators of CONFIG it allows. -/
structure BusSteps (p : Config.Params) (Q : State → Option Early → State → Prop) (config : Mutator → Prop) : Prop
    extends Sequential p Q fun _ => True where
  setTemps : ∀ s old new, Q s none (s.setTemps old new)
  updateCfg : ∀ s f, config f → Q s none (s.setCfg (evalMutatorByte f s.cfg).1)
  configFault : ∀ s, Q s (some (.fault .configViaUpdateRegister)) (s.setFault true)

/-- R152: the instruction a batch element is. -/
def instrOfBatchOp : BatchOp → Instr
  | .writeRegister a w v => .writeRegister a w v
  | .updateRegister a w f => .updateRegister a w f
  | .updateConfig f => .updateConfig f
  | .sendCommand c => .sendCommand c

/-- R152: a batch element runs as its instruction does, and its result is discarded. -/
theorem runBatchOp_eq (p : Config.Params) (op : BatchOp) (s : State) :
    runBatchOp p op s = (hostOp p (instrOfBatchOp op) s).andThen fun _ s1 => .done () s1 := by
  cases op <;> simp only [runBatchOp, instrOfBatchOp, hostOp, opSendCommand, Res.andThen_assoc, Res.andThen_done]

theorem busOnly_instrOfBatchOp (op : BatchOp) : BusOnly (instrOfBatchOp op) := by
  cases op <;> trivial

namespace BusSteps

variable {p : Config.Params} {Q : State → Option Early → State → Prop} {config : Mutator → Prop}

/-- Every operation on the bus only. -/
theorem hostOp (B : BusSteps p Q config) {i : Instr} (hi : BusOnly i) (hconfig : ∀ f, i = .updateConfig f → config f)
    (s : State) : Holds Q s (hostOp p i s) := by
  have S := B.toSequential
  cases i with
  | wireReadRegister | wireWriteRegister | wireReadRxPayload | wireReadRxPayloadWidth | wireWriteTxPayload | wireFlushTx
  | wireFlushRx | wireActivate | sendCommand => exact opSendCommand_holds S trivial s
  | writeRegister a w v => exact S.map _ (opWriteRegister_holds S trivial s)
  | readRegister a w => exact S.map _ (opReadRegister_holds S trivial s)
  | updateRegister a w f =>
    exact S.map _ <| opUpdateRegister_holds S s (B.configFault s) trivial (fun _ _ _ _ => trivial)
      fun _ _ s1 _ => B.setTemps s1 _ _
  | updateConfig f =>
    exact S.map _ <| updateConfigWith_holds S s (fun _ => trivial) <|
      B.trans (B.setTemps s _ _) (B.updateCfg _ f (hconfig f rfl))
  | isConnected => exact S.map _ (opIsConnected_holds S trivial s)
  | clearInterrupts => exact S.map _ (opClearInterrupts_holds S trivial s)
  | _ => exact hi.elim

theorem runBatch (B : BusSteps p Q config) {batch : List BatchOp} (hconfig : ∀ f, .updateConfig f ∈ batch → config f)
    (s : State) : Holds Q s (runBatch p batch s) := by
  refine runBatch_holds B.toSequential batch (fun op hop s => ?_) s
  rw [runBatchOp_eq]
  refine B.map _ (B.hostOp (busOnly_instrOfBatchOp op) (fun f hf => hconfig f ?_) s)
  cases op <;> cases hf
  exact hop

end BusSteps

/-! ## The events a run does without -/

section Avoids

variable {p : Config.Params} {s t : State}

/-- The event `x` is not among those of the run. -/
def Avoids (x : Event) : State → Option Early → State → Prop := Performs fun _ events => x ∉ events

theorem Avoids.of_silent {x : Event} {e : Option Early} (h : t.trace = s.trace) : Avoids x s e t :=
  Performs.of_silent h List.not_mem_nil

theorem Avoids.trans {x : Event} {u : State} {e e' : Option Early} (h : Avoids x s e t) (h' : Avoids x t e' u) :
    Avoids x s e' u := by
  obtain ⟨events, ht, hn⟩ := h
  obtain ⟨events', hu, hn'⟩ := h'
  exact ⟨events ++ events', by rw [hu, ht, List.append_assoc], by simp [hn, hn']⟩

theorem pin_avoids {x : Event} {l : Line} {b : Bool} (hx : x ≠ .pinWrite l b) (s : State) :
    Holds (Avoids x) s (pin l b s) := by
  obtain ⟨t, htrace, hend | hend⟩ := pin_performs l b s <;> rw [hend] <;> exact ⟨_, htrace, by simpa using hx⟩

theorem not_mem_transactionEvents_ce (frame : List Byte) (r : Answer) (b : Bool) :
    .pinWrite .ce b ∉ transactionEvents frame r := by
  simp [transactionEvents]

/-- R100: a transaction writes CSN only. -/
theorem transact_avoids (b : Bool) (c : Command) (s : State) :
    Holds (Avoids (.pinWrite .ce b)) s (transact p c s) := by
  obtain ⟨events, htrace, hevents⟩ := transact_events p c s
  refine ⟨events, htrace, ?_⟩
  obtain rfl | ⟨-, rfl | ⟨r, rfl⟩⟩ := hevents
  · exact List.not_mem_nil
  · simp
  · exact not_mem_transactionEvents_ce _ r b

theorem avoids_busSteps (p : Config.Params) (b : Bool) : BusSteps p (Avoids (.pinWrite .ce b)) fun _ => True where
  refl _ := .of_silent rfl
  trans := .trans
  transact c s _ := transact_avoids b c s
  setTemps _ _ _ := .of_silent rfl
  updateCfg _ _ _ := .of_silent rfl
  configFault _ := .of_silent rfl

end Avoids

/-! ## Where a run may end -/

/-- The run ends with a result in a state of `done`, or with an early end `e` in a state of `stop e`. -/
def Res.Ends {α : Type} (done : State → Prop) (stop : Early → State → Prop) : Res α → Prop
  | .done _ t => done t
  | .stop e t => stop e t

theorem Res.Ends.andThen {α β : Type} {done done' : State → Prop} {stop : Early → State → Prop} {r : Res α}
    {f : α → State → Res β} (first : r.Ends done stop) (second : ∀ a t, done t → (f a t).Ends done' stop) :
    (r.andThen f).Ends done' stop := by
  cases r with
  | done a t => exact second a t first
  | stop e t => exact first

theorem Res.Ends.mono {α : Type} {done done' : State → Prop} {stop stop' : Early → State → Prop} {r : Res α}
    (h : r.Ends done stop) (hdone : ∀ t, done t → done' t) (hstop : ∀ e t, stop e t → stop' e t) :
    r.Ends done' stop' := by
  cases r with
  | done a t => exact hdone t h
  | stop e t => exact hstop e t h

/-- A result that is only wrapped. -/
theorem Res.Ends.map {α β : Type} {done : State → Prop} {stop : Early → State → Prop} {r : Res α} (g : α → β)
    (h : r.Ends done stop) : (r.andThen fun a t => .done (g a) t).Ends done stop :=
  h.andThen fun _ _ ht => ht

/-- R16, R135: what a CE write that succeeds leaves. -/
structure CeWritten (b : Bool) (s t : State) : Prop where
  params : t.params = s.params
  mode : t.mode = s.mode
  cfg : t.cfg = s.cfg
  ce : t.ce = b
  trace : t.trace = s.trace ++ [.pinWrite .ce b]

/-- R135: a CE write succeeds or faults. -/
theorem pin_ce_ends (b : Bool) (s : State) :
    (pin .ce b s).Ends (CeWritten b s) fun e _ => e = .fault (.lineWriteFailed .ce) := by
  obtain ⟨s1, hs1, hend | hend⟩ := pin_cases .ce b s <;> rw [hend]
  · obtain rfl | ⟨rest, rfl⟩ := hs1 <;> exact ⟨rfl, rfl, rfl, rfl, rfl⟩
  · rfl

end Sys2Proof.Machine

/-! ## The mode invariants

R123.  Each nested operation is followed from a state that meets the invariants to where it may end: with a result the
block has settled in the mode the operation ensures; with `WouldBlock` the invariants hold; with an error or a fault
nothing is claimed. -/

namespace Sys2Proof.Machine

variable {p : Config.Params} {m : Mode} {s t u : State} {α : Type}

/-- R123: CE stays high for the same send as long as nothing raises it again. -/
theorem LastRaiseEndsSend.append {trace events : List Event} (h : LastRaiseEndsSend p trace)
    (hevents : .pinWrite .ce true ∉ events) : LastRaiseEndsSend p (trace ++ events) := by
  obtain ⟨before, after, d, rx, rfl, hafter⟩ := h
  exact ⟨before, after ++ events, d, rx, List.append_assoc .., by simp [hafter, hevents]⟩

/-! ### Runs the invariants do not notice -/

/-- The run changes nothing the mode invariants speak of, and does not end in `WouldBlock`. -/
structure QuietRun (p : Config.Params) (s : State) (e : Option Early) (t : State) : Prop where
  params : t.params = s.params
  mode : t.mode = s.mode
  ce : t.ce = s.ce
  primRx : primRx p t.cfg = primRx p s.cfg
  trace : Avoids (.pinWrite .ce true) s e t
  unblocked : e ≠ some .wouldBlock

theorem QuietRun.trans {e e' : Option Early} (h : QuietRun p s e t) (h' : QuietRun p t e' u) : QuietRun p s e' u where
  params := h'.params.trans h.params
  mode := h'.mode.trans h.mode
  ce := h'.ce.trans h.ce
  primRx := h'.primRx.trans h.primRx
  trace := h.trace.trans h'.trace
  unblocked := h'.unblocked

theorem transact_unblocked (c : Command) (s : State) : (transact p c s).early ≠ some .wouldBlock := by
  obtain ⟨-, h⟩ | ⟨-, t, -, ⟨-, -, -, h⟩ | ⟨r, -, -, -, ⟨-, h⟩ | ⟨-, ⟨e, -, h⟩ | ⟨rx, -, h⟩⟩⟩⟩ := transact_cases p c s <;>
    rw [h] <;> exact nofun

theorem transact_quietRun (c : Command) (s : State) : Holds (QuietRun p) s (transact p c s) := by
  have htrace : Avoids (.pinWrite .ce true) s _ _ := transact_avoids (p := p) true c s
  have hearly := transact_unblocked (p := p) c s
  obtain hfault | ⟨-, -, ⟨events, hc⟩, -⟩ := transact_state p c s
  · rw [hfault] at htrace
    rw [Holds, hfault]
    exact ⟨rfl, rfl, rfl, rfl, htrace, hearly⟩
  · exact ⟨hc.params, hc.mode, hc.ce, by rw [hc.cfg], htrace, hearly⟩

theorem quietRun_busSteps (p : Config.Params) : BusSteps p (QuietRun p) (KeepsPrimRx p) where
  refl _ := ⟨rfl, rfl, rfl, rfl, .of_silent rfl, nofun⟩
  trans := .trans
  transact c s _ := transact_quietRun c s
  setTemps _ _ _ := ⟨rfl, rfl, rfl, rfl, .of_silent rfl, nofun⟩
  updateCfg s _ hf := ⟨rfl, rfl, rfl, hf s.cfg, .of_silent rfl, nofun⟩
  configFault _ := ⟨rfl, rfl, rfl, rfl, .of_silent rfl, nofun⟩

/-- R104: after its change of the cache `update_config` is quiet. -/
theorem updateConfigWith_quietRun (f : Byte → Byte × MutResult) (s : State) :
    Holds (QuietRun p) (s.setCfg (f s.cfg).1) (updateConfigWith p f s) := by
  have B := quietRun_busSteps p
  have temps : QuietRun p (s.setCfg (f s.cfg).1) none ((s.setTemps [s.cfg] [(f s.cfg).1]).setCfg (f s.cfg).1) :=
    B.setTemps (s.setCfg (f s.cfg).1) _ _
  by_cases h : (f s.cfg).1 = s.cfg
  · rw [updateConfigWith_unchanged h]
    exact temps
  · rw [updateConfigWith_changed h]
    exact B.update temps (B.map _ (opWriteRegister_holds B.toSequential trivial _))

/-! ### Settled in a mode -/

/-- R123: the block is in mode `m` and meets the mode invariants. -/
structure Settled (p : Config.Params) (m : Mode) (s : State) : Prop where
  params : s.params = p
  mode : s.mode = m
  inv : ModeInv s

theorem settled_standby (hp : s.params = p) (hm : s.mode = .standby) (hce : s.ce = false)
    (hprim : primRx p s.cfg = primRx p p.CONFIG_RESET) : Settled p .standby s := by
  subst hp
  exact ⟨rfl, hm, fun _ => ⟨hce, hprim⟩, by simp [hm], by simp [hm]⟩

theorem settled_rx (hp : s.params = p) (hm : s.mode = .rx) (hce : s.ce = true) (hprim : primRx p s.cfg = true) :
    Settled p .rx s := by
  subst hp
  exact ⟨rfl, hm, by simp [hm], fun _ => ⟨hce, hprim⟩, by simp [hm]⟩

theorem settled_tx (hp : s.params = p) (hm : s.mode = .tx) (hprim : primRx p s.cfg = false)
    (hce : s.ce = true → LastRaiseEndsSend p s.trace) : Settled p .tx s := by
  subst hp
  exact ⟨rfl, hm, by simp [hm], by simp [hm], fun _ => ⟨hprim, hce⟩⟩

theorem ModeInv.answer (h : ModeInv s) (o : OpOutcome) : ModeInv (s.answer o) :=
  ⟨h.standby, h.rx, h.tx⟩

theorem Settled.quietRun {e : Option Early} (h : Settled p m s) (hq : QuietRun p s e t) : Settled p m t := by
  obtain ⟨rfl, rfl, hinv⟩ := h
  cases hm : s.mode with
  | standby =>
    obtain ⟨hce, hprim⟩ := hinv.standby hm
    exact settled_standby hq.params (hq.mode.trans hm) (hq.ce.trans hce) (hq.primRx.trans hprim)
  | rx =>
    obtain ⟨hce, hprim⟩ := hinv.rx hm
    exact settled_rx hq.params (hq.mode.trans hm) (hq.ce.trans hce) (hq.primRx.trans hprim)
  | tx =>
    obtain ⟨hprim, hsend⟩ := hinv.tx hm
    refine settled_tx hq.params (hq.mode.trans hm) (hq.primRx.trans hprim) fun hce => ?_
    obtain ⟨events, htrace, hn⟩ := hq.trace
    rw [htrace]
    exact (hsend (hq.ce.symm.trans hce)).append hn

/-- The early ends the invariants survive are the benign ones: `WouldBlock`. -/
def BlocksInInv (e : Early) (t : State) : Prop := e = .wouldBlock → ModeInv t

/-- A quiet run from a settled state ends in one. -/
theorem QuietRun.ends {r : Res α} (h : Holds (QuietRun p) s r) (hs : Settled p m s) :
    r.Ends (Settled p m) fun e _ => e ≠ .wouldBlock := by
  cases r with
  | done a t => exact hs.quietRun h
  | stop e t => exact fun he => h.unblocked (congrArg some he)

theorem Res.Ends.blocksInInv {done : State → Prop} {r : Res α} (h : r.Ends done fun e _ => e ≠ .wouldBlock) :
    r.Ends done BlocksInInv :=
  h.mono (fun _ => id) fun _ _ he hblock => absurd hblock he

theorem QuietRun.settles {r : Res α} (h : Holds (QuietRun p) s r) (hs : Settled p m s) :
    r.Ends (Settled p m) BlocksInInv :=
  (QuietRun.ends h hs).blocksInInv

/-- A CE write, whose failure is no concern of the invariants. -/
theorem pin_ce_settles (b : Bool) (s : State) : (pin .ce b s).Ends (CeWritten b s) BlocksInInv :=
  (pin_ce_ends b s).mono (fun _ => id) fun e _ he hblock => by rw [he] at hblock; cases hblock

/-! ### The operations of the mode machine -/

/-- R112, R113: the CONFIG write of a transition: `PRIM_RX` of the cache is the one wanted and CE stays. -/
theorem setPrimRx_ends (hlt : p.CFG_PRIM_RX < 8) (x : Bool) (s : State) :
    (updateConfigWith p (fun c => (setPrimRx p c x, .unit)) s).Ends
      (fun t => t.params = s.params ∧ t.ce = s.ce ∧ primRx p t.cfg = x) BlocksInInv := by
  have h := updateConfigWith_quietRun (p := p) (fun c => (setPrimRx p c x, .unit)) s
  cases hr : updateConfigWith p (fun c => (setPrimRx p c x, .unit)) s with
  | done a t =>
    rw [hr] at h
    exact ⟨h.params, h.ce, h.primRx.trans (primRx_setPrimRx hlt s.cfg x)⟩
  | stop e t =>
    rw [hr] at h
    exact fun he => absurd (congrArg some he) h.unblocked

/-- R113: `enter_tx` settles in Tx, by clearing CE and `PRIM_RX` where it was not there yet. -/
theorem opEnterTx_settles (hlt : p.CFG_PRIM_RX < 8) (hp : s.params = p) (hinv : ModeInv s) :
    (opEnterTx p s).Ends (Settled p .tx) BlocksInInv := by
  unfold opEnterTx
  split
  · exact ⟨hp, ‹_›, hinv⟩
  · refine (pin_ce_settles false s).andThen fun _ s1 h1 => (setPrimRx_ends hlt false s1).andThen fun _ s2 h2 => ?_
    obtain ⟨hparams, hce, hprim⟩ := h2
    refine settled_tx (hparams.trans (h1.params.trans hp)) rfl hprim fun high => ?_
    exact nomatch high.symm.trans (hce.trans h1.ce)

theorem pollFifo_settles (hs : Settled p m s) : (pollFifo p s).Ends (Settled p m) BlocksInInv :=
  QuietRun.settles (pollFifo_holds (quietRun_busSteps p).toSequential trivial s) hs

theorem transact_settles (c : Command) (hs : Settled p m s) : (transact p c s).Ends (Settled p m) BlocksInInv :=
  QuietRun.settles (transact_quietRun c s) hs

/-- R120: the discard step ends in `WouldBlock` at a state the invariants hold of. -/
theorem discardStuck_settles {done : State → Prop} (hs : Settled p m s) :
    (discardStuck p s).Ends done BlocksInInv :=
  (transact_settles .flushTx hs).andThen fun _ s1 h1 =>
    (QuietRun.settles (opWriteRegister_holds (quietRun_busSteps p).toSequential trivial s1) h1).andThen
      fun _ _ h2 _ => h2.inv

theorem opWaitTxReady_settles (hlt : p.CFG_PRIM_RX < 8) (hp : s.params = p) (hinv : ModeInv s) :
    (opWaitTxReady p s).Ends (Settled p .tx) BlocksInInv := by
  refine (opEnterTx_settles hlt hp hinv).andThen fun _ s1 h1 => (pollFifo_settles h1).andThen fun x s2 h2 => ?_
  simp only
  split
  · exact discardStuck_settles h2
  · split
    · exact fun _ => h2.inv
    · exact h2

/-- R116: `wait_tx_empty` lowers CE in Tx, where the invariants allow it low. -/
theorem opWaitTxEmpty_settles (hlt : p.CFG_PRIM_RX < 8) (hp : s.params = p) (hinv : ModeInv s) :
    (opWaitTxEmpty p s).Ends (Settled p .tx) BlocksInInv := by
  refine (opEnterTx_settles hlt hp hinv).andThen fun _ s1 h1 => (pollFifo_settles h1).andThen fun x s2 h2 => ?_
  simp only
  split
  · exact discardStuck_settles h2
  · split
    · exact fun _ => h2.inv
    · refine (pin_ce_settles false s2).mono (fun t h3 => ?_) fun _ _ => id
      obtain ⟨rfl, hmode, hinv2⟩ := h2
      obtain ⟨hprim, -⟩ := hinv2.tx hmode
      refine settled_tx h3.params (h3.mode.trans hmode) (h3.cfg ▸ hprim) fun high => ?_
      exact nomatch high.symm.trans h3.ce

/-- R112: `enter_rx` settles in Rx, by raising CE and setting `PRIM_RX` where it was not there yet. -/
theorem opEnterRx_settles (hlt : p.CFG_PRIM_RX < 8) (hp : s.params = p) (hinv : ModeInv s) :
    (opEnterRx p s).Ends (Settled p .rx) BlocksInInv := by
  unfold opEnterRx
  split
  · exact ⟨hp, ‹_›, hinv⟩
  · refine (opWaitTxEmpty_settles hlt hp hinv).andThen fun _ s1 h1 =>
      (pin_ce_settles true s1).andThen fun _ s2 h2 => (setPrimRx_ends hlt true s2).andThen fun _ s3 h3 => ?_
    obtain ⟨hparams, hce, hprim⟩ := h3
    exact settled_rx (hparams.trans (h2.params.trans h1.params)) rfl (hce.trans h2.ce) hprim

/-- R100: a transaction that succeeds has left its three events. -/
theorem transact_done_carries {c : Command} {x : Byte × Response} (h : transact p c s = .done x t) :
    ∃ rx, Carries s t (transactionEvents (encodeFrame p c) (.ok rx)) := by
  obtain ⟨-, h'⟩ | ⟨-, t', -, ⟨-, -, -, h'⟩ | ⟨r, -, hc, -, ⟨-, h'⟩ | ⟨-, ⟨e, -, h'⟩ | ⟨rx, rfl, h'⟩⟩⟩⟩ :=
    transact_cases p c s <;> rw [h'] at h <;> cases h
  exact ⟨rx, hc⟩

/-- R114: `send` raises CE right after its payload transaction. -/
theorem opSend_settles (hlt : p.CFG_PRIM_RX < 8) (packet : List Byte) (hp : s.params = p) (hinv : ModeInv s) :
    (opSend p packet s).Ends (Settled p .tx) BlocksInInv := by
  unfold opSend
  split
  · exact nofun
  · refine (opEnterTx_settles hlt hp hinv).andThen fun _ s1 h1 => ?_
    have htransact := transact_settles (.writeTxPayload packet) h1
    cases hr : transact p (.writeTxPayload packet) s1 with
    | stop e s2 => rwa [hr] at htransact
    | done x s2 =>
      rw [hr] at htransact
      obtain ⟨rx, hc⟩ := transact_done_carries hr
      obtain ⟨hparams, hmode, hinv2⟩ : Settled p .tx s2 := htransact
      refine (pin_ce_settles true s2).mono (fun t h3 => ?_) fun _ _ => id
      have hprim := (hparams ▸ hinv2.tx hmode).1
      refine settled_tx (h3.params.trans hparams) (h3.mode.trans hmode) (h3.cfg ▸ hprim) fun _ => ?_
      exact ⟨s1.trace, [], packet, rx, by rw [h3.trace, hc.trace, List.append_nil], List.not_mem_nil⟩

theorem opWaitRxReady_settles (hlt : p.CFG_PRIM_RX < 8) (hp : s.params = p) (hinv : ModeInv s) :
    (opWaitRxReady p s).Ends (Settled p .rx) BlocksInInv := by
  refine (opEnterRx_settles hlt hp hinv).andThen fun _ s1 h1 => (pollFifo_settles h1).andThen fun x s2 h2 => ?_
  simp only
  split
  · exact fun _ => h2.inv
  · exact h2

theorem opRead_settles (hlt : p.CFG_PRIM_RX < 8) (hp : s.params = p) (hinv : ModeInv s) :
    (opRead p s).Ends (Settled p .rx) BlocksInInv := by
  refine (opEnterRx_settles hlt hp hinv).andThen fun _ s1 h1 =>
    (transact_settles .readRxPayloadWidth h1).andThen fun x s2 h2 => ?_
  simp only
  split
  · exact nofun
  · exact (transact_settles _ h2).map _

/-! ### Construction -/

/-- R153: the initial cache has `PRIM_RX` as CONFIG_RESET has it. -/
theorem primRx_constructCfg (hp : p.Valid) : primRx p (constructCfg p) = primRx p p.CONFIG_RESET := by
  obtain ⟨-, -, -, hnodup, -⟩ := hp
  simp only [Config.Params.configBits, List.nodup_cons, List.mem_cons, not_or] at hnodup
  obtain ⟨⟨-, -, -, hmaxRt, htxDs, hrxDr, -⟩, -⟩ := hnodup
  rw [primRx, primRx, getBit_eq, getBit_eq, constructCfg_eq, initialCfg_other_bit p hrxDr htxDs hmaxRt]

/-- R152: `construct` settles in Standby from every state. -/
theorem constructBody_settles {batch : List BatchOp} (hp : p.Valid) (hbatch : ∀ op ∈ batch, BatchKeepsPremise p op)
    (hs : s.params = p) : (constructBody p batch s).Ends (Settled p .standby) fun e _ => e ≠ .wouldBlock := by
  have B := quietRun_busSteps p
  have hconfig : ∀ f, .updateConfig f ∈ batch → KeepsPrimRx p f := fun f hf => hbatch _ hf
  rw [constructBody_eq]
  refine ((pin_ce_ends false _).mono (fun _ => id) fun e _ he => by rw [he]; exact nofun).andThen fun _ s1 h1 => ?_
  have hparams : s1.params = p := h1.params.trans hs
  obtain ⟨s2, hs2, hcsn | hcsn⟩ := pin_cases .csn true s1 <;> rw [hcsn]
  · rw [Res.andThen_done]
    refine (QuietRun.ends (m := .standby) (opIsConnected_holds B.toSequential trivial _) ?_).andThen
      fun connected s3 h3 => ?_
    · refine settled_standby ?_ rfl ?_ (primRx_constructCfg hp)
      · obtain rfl | ⟨rest, rfl⟩ := hs2 <;> simpa using hparams
      · obtain rfl | ⟨rest, rfl⟩ := hs2 <;> simpa using h1.ce
    · split
      · exact QuietRun.ends (B.runBatch hconfig s3) h3
      · exact nofun
  · exact nofun

/-- R32: the forgotten working registers are no concern of the invariants. -/
theorem opConstruct_settles {batch : List BatchOp} (hp : p.Valid) (hbatch : ∀ op ∈ batch, BatchKeepsPremise p op)
    (hs : s.params = p) : (opConstruct p batch s).Ends ModeInv BlocksInInv := by
  have h := constructBody_settles hp hbatch hs
  unfold opConstruct
  split <;> rename_i hbody <;> rw [hbody] at h
  · exact ⟨h.inv.standby, h.inv.rx, h.inv.tx⟩
  · exact fun he => absurd he h

/-! ### Every instruction -/

/-- R123: every operation that keeps the premises, from a state that meets the invariants. -/
theorem hostOp_settles {i : Instr} (hp : s.params.Valid) (hi : KeepsPremise s.params i) (hinv : ModeInv s) :
    (hostOp s.params i s).Ends ModeInv BlocksInInv := by
  have hlt : s.params.CFG_PRIM_RX < 8 := configBit_lt_of_valid hp (by simp [Config.Params.configBits])
  have settled {α β : Type} {m : Mode} {r : Res α} (g : α → β) (h : r.Ends (Settled s.params m) BlocksInInv) :
      (r.andThen fun a t => .done (g a) t).Ends ModeInv BlocksInInv :=
    (h.map g).mono (fun _ h => h.inv) fun _ _ => id
  by_cases hbus : BusOnly i
  · have h := (quietRun_busSteps s.params).hostOp hbus (by rintro f rfl; exact hi) s
    exact (QuietRun.settles h ⟨rfl, rfl, hinv⟩).mono (fun _ h => h.inv) fun _ _ => id
  · cases i with
    | construct batch => exact opConstruct_settles hp hi rfl
    | ceEnable => exact hi.elim
    | ceDisable => exact hi.elim
    | enterRx => exact settled _ (opEnterRx_settles hlt rfl hinv)
    | enterTx => exact settled _ (opEnterTx_settles hlt rfl hinv)
    | send packet => exact settled _ (opSend_settles hlt packet rfl hinv)
    | waitTxReady => exact settled _ (opWaitTxReady_settles hlt rfl hinv)
    | waitTxEmpty => exact settled _ (opWaitTxEmpty_settles hlt rfl hinv)
    | waitRxReady => exact settled _ (opWaitRxReady_settles hlt rfl hinv)
    | read => exact settled _ (opRead_settles hlt rfl hinv)
    | _ => exact absurd trivial hbus

/-- A benign outcome is a result or `WouldBlock`. -/
theorem Res.Ends.state_of_benign {P : State → Prop} {r : Res Value} (h : r.Ends P fun e t => e = .wouldBlock → P t)
    (hbenign : r.outcome.benign = true) : P r.state := by
  cases r with
  | done v t => exact h
  | stop e t =>
    cases e with
    | wouldBlock => exact h rfl
    | _ => cases hbenign

/-- Settles O52: the operation settles where its outcome is benign, `construct` from every state and the others from
one that meets the invariants. -/
theorem modeInvariantIsKept : Obligations.ModeInvariantIsKept := by
  intro i s t o hp hi hexec hout hbenign hstart
  have hserved : (∃ batch, i = .construct batch) ∨ Ready s := hstart.symm.imp id And.left
  rw [exec_served hserved] at hexec
  cases hexec
  rw [finish_outcome hout] at hbenign
  suffices h : (hostOp s.params i s).Ends ModeInv BlocksInInv from (h.state_of_benign hbenign).answer _
  obtain ⟨-, hinv⟩ | ⟨batch, rfl⟩ := hstart
  · exact hostOp_settles hp hi hinv
  · exact opConstruct_settles hp hi rfl

end Sys2Proof.Machine

/-! ## The mode machine in a given environment

R112 to R121: what each operation leaves when the environment's answers are given.  The runs of `Laws/Runs.lean` are
continued to the early ends and to the host's operations, and each statement is one of them at the host port. -/

namespace Sys2Proof.Machine

variable {p : Config.Params} {s t : State} {rx0 rx1 : List Byte} {st f : Byte} {e : TransportError}

/-! ### At the host port -/

section Leaves

variable {i : Instr} {m : Mode} {c : Byte} {ce : Bool} {events : List Event} {lines exchanges : Nat}

/-- A run to a result, at the host port of a ready block. -/
theorem Ran.exec_done {v : Value} (h : Ran s t m c ce events lines exchanges) (hready : Ready s)
    (hop : hostOp s.params i s = .done v t) :
    ∃ t, exec i s = .next t ∧ Leaves s t m c ce events (.ok v) lines exchanges :=
  ⟨_, by rw [exec_ready hready, hop]; rfl, h.leaves _ hready⟩

/-- A run to an early end, at the host port of a ready block. -/
theorem Ran.exec_stop {early : Early} {o : OpOutcome} (h : Ran s t m c ce events lines exchanges) (hready : Ready s)
    (hop : hostOp s.params i s = .stop early t) (ho : early.toOutcome = o) :
    ∃ t, exec i s = .next t ∧ Leaves s t m c ce events o lines exchanges :=
  ⟨_, by rw [exec_ready hready, hop, Res.finish, Res.outcome_stop, ho]; rfl, h.leaves _ hready⟩

end Leaves

theorem unitOp_done {op : State → Res Unit} (h : op s = .done () t) : unitOp op s = .done .unit t := by
  rw [unitOp, h, Res.andThen_done]

theorem unitOp_stop {op : State → Res Unit} {early : Early} (h : op s = .stop early t) :
    unitOp op s = .stop early t := by
  rw [unitOp, h, Res.andThen_stop]

/-! ### The transitions, step by step -/

theorem opEnterTx_of_tx (h : s.mode = .tx) : opEnterTx p s = .done () s := if_pos h

theorem opEnterRx_of_rx (h : s.mode = .rx) : opEnterRx p s = .done () s := if_pos h

theorem opWaitTxEmpty_enterTx_stops {early : Early} (h : opEnterTx p s = .stop early t) :
    opWaitTxEmpty p s = .stop early t := by
  rw [opWaitTxEmpty, h, Res.andThen_stop]

theorem opWaitTxReady_poll_stops {s1 : State} {early : Early} (h1 : opEnterTx p s = .done () s1)
    (h2 : pollFifo p s1 = .stop early t) : opWaitTxReady p s = .stop early t := by
  rw [opWaitTxReady, h1, Res.andThen_done, h2, Res.andThen_stop]

theorem opWaitTxEmpty_poll_stops {s1 : State} {early : Early} (h1 : opEnterTx p s = .done () s1)
    (h2 : pollFifo p s1 = .stop early t) : opWaitTxEmpty p s = .stop early t := by
  rw [opWaitTxEmpty, h1, Res.andThen_done, h2, Res.andThen_stop]

/-- R115: `wait_tx_ready` after its poll. -/
theorem opWaitTxReady_polled {s1 : State} (h1 : opEnterTx p s = .done () s1) (h2 : pollFifo p s1 = .done (st, f) t) :
    opWaitTxReady p s =
      if maxRt p st = true then discardStuck p t else if txFull p f = true then .stop .wouldBlock t else .done () t := by
  rw [opWaitTxReady, h1, Res.andThen_done, h2, Res.andThen_done]

/-- R116: `wait_tx_empty` after its poll. -/
theorem opWaitTxEmpty_polled {s1 : State} (h1 : opEnterTx p s = .done () s1) (h2 : pollFifo p s1 = .done (st, f) t) :
    opWaitTxEmpty p s =
      if maxRt p st = true then discardStuck p t
      else if txEmpty p f = false then .stop .wouldBlock t
      else pin .ce false t := by
  rw [opWaitTxEmpty, h1, Res.andThen_done, h2, Res.andThen_done]

/-- R112: where the nested `wait_tx_empty` ends early, `enter_rx` does. -/
theorem opEnterRx_waitTxEmpty_stops {early : Early} (hm : s.mode ≠ .rx) (h : opWaitTxEmpty p s = .stop early t) :
    opEnterRx p s = .stop early t := by
  rw [opEnterRx, if_neg hm, h, Res.andThen_stop]

/-- R116: `wait_tx_empty` that finds the TX FIFO not empty. -/
theorem opWaitTxEmpty_notEmpty_ran (hrx : rx0.length = 2) (hmax : maxRt s.params st = false)
    (hempty : txEmpty s.params f = false) (ha : Answers s (txLines s rx0 + 2) (txAnswers s rx0 ++ [.ok [st, f]])) :
    ∃ t, opWaitTxEmpty s.params s = .stop .wouldBlock t ∧
      Ran s t .tx (txCfg s) (txCe s) (txEvents s rx0 ++ transactionEvents (pollFrame s.params) (.ok [st, f]))
        (txLines s rx0 + 2) ((txAnswers s rx0).length + 1) := by
  obtain ⟨s1, t, h1, h2, hr⟩ := enterTx_pollFifo_ran hrx ha
  exact ⟨t, by simp [opWaitTxEmpty_polled h1 h2, hmax, hempty], hr⟩

/-- R112, R121: `enter_rx` whose own CONFIG write fails. -/
theorem opEnterRx_err_ran (hrx : rx0.length = 2) (hm : s.mode ≠ .rx) (hmax : maxRt s.params st = false)
    (hempty : txEmpty s.params f = true) (hcfg : rxCfg s ≠ txCfg s)
    (ha : Answers s (txLines s rx0 + 6) (txAnswers s rx0 ++ [.ok [st, f], .err e])) :
    ∃ t, opEnterRx s.params s = .stop (.transportFailure e) t ∧
      Ran s t .tx (rxCfg s) true
        (txEvents s rx0 ++ transactionEvents (pollFrame s.params) (.ok [st, f]) ++
            [.pinWrite .ce false, .pinWrite .ce true] ++ transactionEvents (configFrame s.params (rxCfg s)) (.err e))
        (txLines s rx0 + 6) ((txAnswers s rx0).length + 2) := by
  have ha : Answers s (txLines s rx0 + 6) ((txAnswers s rx0 ++ [.ok [st, f]]) ++ [.err e]) := by simpa using ha
  rw [rxCfg, if_neg hm] at hcfg ⊢
  obtain ⟨s1, h1, r1⟩ := opWaitTxEmpty_ran hrx hmax hempty (ha.front (l' := txLines s rx0 + 3) (by omega))
  have ha1 : Answers s1 3 [.err e] := ha.rest (l1 := txLines s rx0 + 3) rfl (by simpa using r1)
  obtain ⟨s2, h2, r2⟩ := pin_ce_ran true (ha1.front (xs := []) (l' := 1) (by omega))
  have ha2 : Answers s2 2 [.err e] := ha1.rest (xs := []) (l1 := 1) rfl r2
  have hcfg2 : s2.cfg = txCfg s := r2.cfg.trans r1.cfg
  rw [← hcfg2] at hcfg ⊢
  obtain ⟨t, h3, r3⟩ := updateConfigWith_err_ran (p := s.params) (f := fun c => (setPrimRx s.params c true, .unit)) hcfg ha2
  refine ⟨t, by rw [opEnterRx, if_neg hm, h1, Res.andThen_done, h2, Res.andThen_done, h3, Res.andThen_stop], ?_⟩
  have r := (r1.trans r2).trans r3
  rw [r2.mode, r1.mode, r2.ce] at r
  simpa using r

/-- Settles O27: in its own mode a transition does nothing; otherwise it is the run of "ensure Tx" or "ensure Rx". -/
theorem modeTransitionsComplete : Obligations.ModeTransitionsComplete := by
  intro s hready
  refine ⟨fun hm => ?_, fun hm => ?_, fun rx0 hrx hm ha => ?_, fun rx0 rx1 st f hrx0 hrx1 hm hmax hempty ha => ?_⟩
  · rw [exec_ready hready, hostOp, unitOp_done (opEnterTx_of_tx hm)]
    rfl
  · rw [exec_ready hready, hostOp, unitOp_done (opEnterRx_of_rx hm)]
    rfl
  · obtain ⟨t, ht, hr⟩ := opEnterTx_ran hrx ha
    simpa [txCfg, txCe, txEvents, hm] using hr.exec_done (i := .enterTx) hready (unitOp_done ht)
  · obtain ⟨t, ht, hr⟩ := opEnterRx_ran hrx0 hrx1 hmax hempty ha
    simpa [rxCe, hm] using hr.exec_done (i := .enterRx) hready (unitOp_done ht)

/-- Settles O28: the early ends of "ensure Tx", and those of `wait_tx_empty` and of the last CONFIG write in
`enter_rx`. -/
theorem transitionsEndEarly : Obligations.TransitionsEndEarly := by
  refine ⟨fun s i e hready hm hcfg hi ha => ?_, fun s rx0 hready hm hrx =>
    ⟨fun st f hmax hempty ha => ?_, fun e ha => ?_, fun st f e hmax hempty hcfg ha => ?_⟩⟩
  · obtain ⟨t, ht, hr⟩ := opEnterTx_err_ran hm hcfg ha
    refine hr.exec_stop (early := .transportFailure e) hready ?_ rfl
    obtain rfl | ⟨rfl, hrx⟩ := hi
    · exact unitOp_stop ht
    · exact unitOp_stop (opEnterRx_waitTxEmpty_stops hrx (opWaitTxEmpty_enterTx_stops ht))
  · obtain ⟨t, ht, hr⟩ := opWaitTxEmpty_notEmpty_ran hrx hmax hempty ha
    exact hr.exec_stop hready (unitOp_stop (opEnterRx_waitTxEmpty_stops hm ht)) rfl
  · obtain ⟨s1, t, h1, h2, hr⟩ := enterTx_pollFifo_err_ran hrx ha
    exact hr.exec_stop hready (unitOp_stop (opEnterRx_waitTxEmpty_stops hm (opWaitTxEmpty_poll_stops h1 h2))) rfl
  · obtain ⟨t, ht, hr⟩ := opEnterRx_err_ran hrx hm hmax hempty hcfg ha
    exact hr.exec_stop hready (unitOp_stop ht) rfl

/-! ### Sending -/

theorem opSend_too_long {packet : List Byte} (h : Config.MAX_PAYLOAD < packet.length) :
    opSend p packet s = .stop (.fault .payloadTooLong) (s.setFault true) :=
  if_pos h

theorem opSend_eq {packet : List Byte} (h : packet.length ≤ Config.MAX_PAYLOAD) :
    opSend p packet s =
      (opEnterTx p s).andThen fun _ s1 =>
        (transact p (.writeTxPayload packet) s1).andThen fun _ s2 => pin .ce true s2 :=
  if_neg (Nat.not_lt.mpr h)

/-- R54, R96: a packet that fits has a frame. -/
theorem writeTxPayload_short {packet : List Byte} (h : packet.length ≤ Config.MAX_PAYLOAD) :
    frameLen (.writeTxPayload packet) ≤ Config.BUF_LEN :=
  (payload_fits_iff _).1 h

/-- Settles O31: "ensure Tx", the payload transaction and the raise of CE, or the end of the run where one fails. -/
theorem sendCompletes : Obligations.SendCompletes := by
  intro s packet hready
  refine ⟨fun hlong => ?_, fun hshort rx0 hrx0 => ⟨fun rx hrx ha => ?_, fun e ha => ?_, fun e hm hcfg ha => ?_⟩⟩
  · rw [FaultsAtOnce, exec_ready hready, hostOp, unitOp_stop (opSend_too_long hlong)]
    rfl
  · have ha' : Answers s (txLines s rx0 + 3) ((txAnswers s rx0 ++ [.ok rx]) ++ []) := by simpa using ha
    obtain ⟨s1, h1, r1⟩ := opEnterTx_ran hrx0 (ha.front (by omega))
    have ha1 : Answers s1 3 [.ok rx] := ha.rest rfl r1
    obtain ⟨s2, h2, r2⟩ := transact_ran (p := s.params) (c := .writeTxPayload packet) rfl (writeTxPayload_short hshort)
      (ha1.front (ys := []) (by omega)) hrx
    have ha2 : Answers s2 1 [] := ha1.rest (xs := [.ok rx]) (ys := []) (l1 := 2) rfl r2
    obtain ⟨t, h3, r3⟩ := pin_ce_ran true ha2
    have hop : opSend s.params packet s = .done () t := by
      rw [opSend_eq hshort, h1, Res.andThen_done, h2, Res.andThen_done, h3]
    have r := (r1.trans r2).trans r3
    rw [r2.mode, r1.mode, r2.cfg, r1.cfg] at r
    exact r.exec_done hready (unitOp_done hop)
  · obtain ⟨s1, h1, r1⟩ := opEnterTx_ran hrx0 (ha.front (by omega))
    obtain ⟨t, h2, r2⟩ := transact_err_ran (p := s.params) (writeTxPayload_short hshort) (ha.rest rfl r1)
    have hop : opSend s.params packet s = .stop (.transportFailure e) t := by
      rw [opSend_eq hshort, h1, Res.andThen_done, h2, Res.andThen_stop]
    have r := r1.trans r2
    rw [r1.mode, r1.cfg, r1.ce] at r
    exact r.exec_stop hready (unitOp_stop hop) rfl
  · obtain ⟨t, ht, hr⟩ := opEnterTx_err_ran hm hcfg ha
    exact hr.exec_stop hready (unitOp_stop (by rw [opSend_eq hshort, ht, Res.andThen_stop])) rfl

/-! ### The polls in Tx -/

/-- Settles O32: the poll decides, or fails. -/
theorem waitTxReadyCompletes : Obligations.WaitTxReadyCompletes := by
  intro s rx0 hready hrx
  refine ⟨fun st f hmax ha => ?_, fun e ha => ?_⟩
  · obtain ⟨s1, t, h1, h2, hr⟩ := enterTx_pollFifo_ran hrx ha
    have hop := opWaitTxReady_polled h1 h2
    by_cases hfull : txFull s.params f = true
    · rw [if_pos hfull]
      exact hr.exec_stop (early := .wouldBlock) hready (unitOp_stop (by simp [hop, hmax, hfull])) rfl
    · rw [if_neg hfull]
      exact hr.exec_done hready (unitOp_done (by simp [hop, hmax, hfull]))
  · obtain ⟨s1, t, h1, h2, hr⟩ := enterTx_pollFifo_err_ran hrx ha
    exact hr.exec_stop hready (unitOp_stop (opWaitTxReady_poll_stops h1 h2)) rfl

/-- Settles O33: the poll decides whether CE is lowered. -/
theorem waitTxEmptyCompletes : Obligations.WaitTxEmptyCompletes := by
  intro s rx0 st f hready hrx hmax
  refine ⟨fun hempty ha => ?_, fun hempty ha => ?_⟩
  · obtain ⟨t, ht, hr⟩ := opWaitTxEmpty_ran hrx hmax hempty ha
    exact hr.exec_done hready (unitOp_done ht)
  · obtain ⟨t, ht, hr⟩ := opWaitTxEmpty_notEmpty_ran hrx hmax hempty ha
    exact hr.exec_stop hready (unitOp_stop ht) rfl

/-! ### The discard step -/

section Discard

variable {st1 : Byte} {rx2 : List Byte}

/-- R120: FlushTx and the STATUS write, answered. -/
theorem discardStuck_ran (hrx : rx2.length = 2) (ha : Answers s 4 [.ok [st1], .ok rx2]) :
    ∃ t, discardStuck p s = .stop .wouldBlock t ∧
      Ran s t s.mode s.cfg s.ce (discardEvents p [st1] rx2) 4 2 := by
  obtain ⟨s1, h1, r1⟩ := transact_ran (p := p) (c := .flushTx) rfl (by decide)
    (ha.front (xs := [.ok [st1]]) (l' := 2) (by omega)) rfl
  have ha1 : Answers s1 2 [.ok rx2] := ha.rest (xs := [.ok [st1]]) rfl r1
  obtain ⟨t, h2, r2⟩ := opWriteRegister_ran (p := p) (a := p.ADDR_STATUS) (w := 1) (v := [stClearTx p]) rfl ha1 hrx
  have r := r1.trans r2
  rw [r1.mode, r1.cfg, r1.ce] at r
  exact ⟨t, by rw [discardStuck, h1, Res.andThen_done, h2, Res.andThen_done], r⟩

/-- R120, R141 (c): FlushTx fails, and the STATUS write is not attempted. -/
theorem discardStuck_flush_err_ran (ha : Answers s 2 [.err e]) :
    ∃ t, discardStuck p s = .stop (.transportFailure e) t ∧
      Ran s t s.mode s.cfg s.ce (transactionEvents (encodeFrame p .flushTx) (.err e)) 2 1 := by
  obtain ⟨t, h, r⟩ := transact_err_ran (p := p) (c := .flushTx) (by decide) ha
  exact ⟨t, by rw [discardStuck, h, Res.andThen_stop], r⟩

/-- R120, R141 (c): the STATUS write fails. -/
theorem discardStuck_status_err_ran (ha : Answers s 4 [.ok [st1], .err e]) :
    ∃ t, discardStuck p s = .stop (.transportFailure e) t ∧
      Ran s t s.mode s.cfg s.ce
        (transactionEvents (encodeFrame p .flushTx) (.ok [st1]) ++
          transactionEvents (statusFrame p (stClearTx p)) (.err e)) 4 2 := by
  obtain ⟨s1, h1, r1⟩ := transact_ran (p := p) (c := .flushTx) rfl (by decide)
    (ha.front (xs := [.ok [st1]]) (l' := 2) (by omega)) rfl
  have ha1 : Answers s1 2 [.err e] := ha.rest (xs := [.ok [st1]]) rfl r1
  obtain ⟨t, h2, r2⟩ := opWriteRegister_err_ran (p := p) (a := p.ADDR_STATUS) (w := 1) (v := [stClearTx p]) rfl ha1
  have r := r1.trans r2
  rw [r1.mode, r1.cfg, r1.ce] at r
  exact ⟨t, by rw [discardStuck, h1, Res.andThen_done, h2, Res.andThen_stop], r⟩

/-- R120: the three operations end as the discard step does when the poll shows MAX_RT. -/
theorem hostOp_discards {i : Instr} (hi : i = .waitTxReady ∨ i = .waitTxEmpty ∨ (i = .enterRx ∧ s.mode ≠ .rx))
    {s1 s2 : State} (h1 : opEnterTx p s = .done () s1) (h2 : pollFifo p s1 = .done (st, f) s2)
    (hmax : maxRt p st = true) {early : Early} (hdiscard : discardStuck p s2 = .stop early t) :
    hostOp p i s = .stop early t := by
  have hempty : opWaitTxEmpty p s = .stop early t := by rw [opWaitTxEmpty_polled h1 h2, if_pos hmax, hdiscard]
  obtain rfl | rfl | ⟨rfl, hm⟩ := hi
  · exact unitOp_stop (by rw [opWaitTxReady_polled h1 h2, if_pos hmax, hdiscard])
  · exact unitOp_stop hempty
  · exact unitOp_stop (opEnterRx_waitTxEmpty_stops hm hempty)

/-- "Ensure Tx", the poll that shows MAX_RT, and a discard step from there, at the host port. -/
theorem exec_discards {i : Instr} (hi : i = .waitTxReady ∨ i = .waitTxEmpty ∨ (i = .enterRx ∧ s.mode ≠ .rx))
    (hready : Ready s) (hrx : rx0.length = 2) (hmax : maxRt s.params st = true) {lines : Nat} {xs : List Answer}
    {events : List Event} {early : Early} {o : OpOutcome}
    (ha : Answers s (txLines s rx0 + (2 + lines)) (txAnswers s rx0 ++ .ok [st, f] :: xs))
    (hdiscard : ∀ u, Answers u lines xs → ∃ t, discardStuck s.params u = .stop early t ∧
      Ran u t u.mode u.cfg u.ce events lines xs.length) (ho : early.toOutcome = o) :
    ∃ t, exec i s = .next t ∧
      Leaves s t .tx (txCfg s) (txCe s)
        (txEvents s rx0 ++ transactionEvents (pollFrame s.params) (.ok [st, f]) ++ events) o
        (txLines s rx0 + (2 + lines)) ((txAnswers s rx0).length + (1 + xs.length)) := by
  have ha : Answers s (txLines s rx0 + (2 + lines)) ((txAnswers s rx0 ++ [.ok [st, f]]) ++ xs) := by simpa using ha
  obtain ⟨s1, s2, h1, h2, r2⟩ := enterTx_pollFifo_ran hrx (ha.front (by omega))
  have ha2 : Answers s2 lines xs := ha.rest (l1 := txLines s rx0 + 2) (by omega) (by simpa using r2)
  obtain ⟨t, h3, r3⟩ := hdiscard s2 ha2
  have r := r2.trans r3
  rw [r2.mode, r2.cfg, r2.ce, Nat.add_assoc, Nat.add_assoc] at r
  exact r.exec_stop hready (hostOp_discards hi h1 h2 hmax h3) ho

/-- Settles O34: the discard step's three ends, in each of the three operations. -/
theorem discardStepRuns : Obligations.DiscardStepRuns := by
  intro i s rx0 st f hi hready hrx hmax
  refine ⟨fun st1 rx2 hrx2 ha => ?_, fun e ha => ?_, fun st1 e ha => ?_⟩
  · exact exec_discards hi hready hrx hmax ha (fun u hu => discardStuck_ran hrx2 hu) rfl
  · exact exec_discards hi hready hrx hmax ha (fun u hu => discardStuck_flush_err_ran hu) rfl
  · rw [List.append_assoc _ (transactionEvents (encodeFrame s.params .flushTx) _)]
    exact exec_discards hi hready hrx hmax ha (fun u hu => discardStuck_status_err_ran hu) rfl

end Discard

/-! ### Receiving -/

/-- Settles O35: "ensure Rx" and the poll, whose own Status gives the pipe number. -/
theorem waitRxReadyCompletes : Obligations.WaitRxReadyCompletes := by
  intro s rx0 rx1 st0 f0 st f hready hrx0 hrx1 hmax hempty ha
  obtain ⟨s1, h1, r1⟩ := opEnterRx_ran hrx0 hrx1 hmax hempty (ha.front (by omega))
  obtain ⟨t, h2, r2⟩ := pollFifo_ran (p := s.params) (ha.rest rfl r1)
  have hop : opWaitRxReady s.params s =
      if rxEmpty s.params f = true then .stop .wouldBlock t else .done (rxPNo s.params st) t := by
    rw [opWaitRxReady, h1, Res.andThen_done, h2, Res.andThen_done]
  have r := r1.trans r2
  rw [r1.mode, r1.cfg, r1.ce] at r
  by_cases hrxEmpty : rxEmpty s.params f = true
  · rw [if_pos hrxEmpty] at hop ⊢
    exact r.exec_stop (early := .wouldBlock) hready (by simp only [hostOp, hop, Res.andThen_stop]) rfl
  · rw [if_neg hrxEmpty] at hop ⊢
    exact r.exec_done hready (by simp only [hostOp, hop, Res.andThen_done])

/-- R118: `read` up to the width, whose transaction is answered. -/
theorem opRead_width_ran {st0 f0 width : Byte} (hrx0 : rx0.length = 2) (hrx1 : rx1.length = 2)
    (hmax : maxRt s.params st0 = false) (hempty : txEmpty s.params f0 = true)
    (ha : Answers s (rxLines s rx0 rx1 + 2) (rxAnswers s rx0 [st0, f0] rx1 ++ [.ok [st, width]])) :
    ∃ t, (opRead s.params s =
        if width.toNat > Config.MAX_PAYLOAD then raise .payloadTooLong t
        else (transact s.params (.readRxPayload width.toNat) t).andThen fun x s1 => .done x.2.bytes s1) ∧
      Ran s t .rx (rxCfg s) (rxCe s)
        (rxEvents s rx0 [st0, f0] rx1 ++
          transactionEvents (encodeFrame s.params .readRxPayloadWidth) (.ok [st, width]))
        (rxLines s rx0 rx1 + 2) ((rxAnswers s rx0 [st0, f0] rx1).length + 1) := by
  obtain ⟨s1, h1, r1⟩ := opEnterRx_ran hrx0 hrx1 hmax hempty (ha.front (by omega))
  obtain ⟨t, h2, r2⟩ := transact_ran (p := s.params) (c := .readRxPayloadWidth) rfl (by decide) (ha.rest rfl r1) rfl
  have r := r1.trans r2
  rw [r1.mode, r1.cfg, r1.ce] at r
  refine ⟨t, ?_, r⟩
  rw [opRead, h1, Res.andThen_done, h2, Res.andThen_done]
  rfl

/-- Settles O36: after the width, the payload transaction or the fault. -/
theorem readCompletes : Obligations.ReadCompletes := by
  intro s rx0 rx1 st0 f0 st width hready hrx0 hrx1 hmax hempty
  refine ⟨fun st1 payload hwidth hpayload ha => ?_, fun hwidth ha => ?_⟩
  · have ha : Answers s (rxLines s rx0 rx1 + 4)
        ((rxAnswers s rx0 [st0, f0] rx1 ++ [.ok [st, width]]) ++ [.ok (st1 :: payload)]) := by simpa using ha
    obtain ⟨s1, h1, r1⟩ := opRead_width_ran hrx0 hrx1 hmax hempty (ha.front (by omega))
    have hlen : (st1 :: payload).length = frameLen (.readRxPayload width.toNat) := by simp [frameLen, hpayload]; omega
    obtain ⟨t, h2, r2⟩ := transact_ran (p := s.params) (c := .readRxPayload width.toNat) rfl
      ((payload_fits_iff _).1 hwidth) (ha.rest (l1 := rxLines s rx0 rx1 + 2) rfl (by simpa using r1)) hlen
    rw [if_neg (show ¬ width.toNat > Config.MAX_PAYLOAD from Nat.not_lt.mpr hwidth), h2, Res.andThen_done,
      decodeResponse_cons (by simpa [Nat.add_comm] using hlen)] at h1
    have r := r1.trans r2
    rw [r1.mode, r1.cfg, r1.ce] at r
    exact r.exec_done hready (by simp only [hostOp, h1, Res.andThen_done]; rfl)
  · obtain ⟨t, h1, r⟩ := opRead_width_ran hrx0 hrx1 hmax hempty ha
    rw [if_pos (show width.toNat > Config.MAX_PAYLOAD from hwidth), raise_eq] at h1
    have hexec : exec .read s = .next ((t.setFault true).answer (.fault .payloadTooLong)) := by
      simp only [exec_ready hready, hostOp, h1]
      rfl
    exact ⟨_, hexec, rfl, r.live.trans hready.1, r.mode, by simp [r.trace], by simp [r.outcomes]⟩

/-- Settles O37: one transaction that writes STATUS. -/
theorem clearInterruptsCompletes : Obligations.ClearInterruptsCompletes := by
  intro s hready
  have h := isTransaction_clearInterrupts s.params
  have hlen := writeRegister_short (a := s.params.ADDR_STATUS) (w := 1) (v := [stClearAll s.params]) rfl
  refine ⟨fun rx hrx ha => ?_, fun e => h.endsWithBusError hready hlen⟩
  obtain ⟨st, v, rfl⟩ := List.length_eq_two.1 hrx
  exact h.completesAs (data := [v]) hready rfl hlen rfl ha

end Sys2Proof.Machine

/-! ## What the mode machine leaves alone

R124 to R126 and the frame of R112 to R118. -/

namespace Sys2Proof.Machine

variable {p : Config.Params} {s t : State} {α : Type}

/-- A property of the run's final state is one of the instruction's, if it held before and answering the host keeps
it. -/
theorem of_exec {P : State → Prop} {i : Instr} (run : P (hostOp s.params i s).state) (start : P s)
    (answer : ∀ u o, P u → P (u.answer o)) (hexec : exec i s = .next t) : P t := by
  obtain ⟨-, he⟩ | ⟨-, -, he⟩ := exec_cases i s <;> rw [he] at hexec <;> cases hexec
  · exact answer _ _ run
  · exact answer _ _ start

/-! ### The mode -/

/-- The run leaves the mode as it was, however it ends. -/
def KeepsMode (s : State) (_ : Option Early) (t : State) : Prop := t.mode = s.mode

theorem pin_keepsMode (l : Line) (b : Bool) (s : State) : Holds KeepsMode s (pin l b s) := by
  obtain ⟨s1, rfl | ⟨rest, rfl⟩, hend | hend⟩ := pin_cases l b s <;> rw [hend] <;> simp [Holds, KeepsMode]

theorem keepsMode_busSteps (p : Config.Params) : BusSteps p KeepsMode fun _ => True where
  toSequential := Untouched.sequential ⟨Carries.mode, fun _ => rfl, fun _ _ => rfl⟩ p
  setTemps _ _ _ := rfl
  updateCfg _ _ _ := rfl
  configFault _ := rfl

theorem updateConfigWith_keepsMode (f : Byte → Byte × MutResult) (s : State) :
    Holds KeepsMode s (updateConfigWith p f s) :=
  updateConfigWith_holds (keepsMode_busSteps p).toSequential s (fun _ => trivial) rfl

/-- A fact of the final state alone, as a fact of the run's end. -/
theorem Res.Ends.of_state {P : State → Prop} {r : Res α} (h : P r.state) : r.Ends P fun _ => P := by
  cases r <;> exact h

/-- R113, R126: `enter_tx` assigns its mode last. -/
theorem opEnterTx_mode (p : Config.Params) (s : State) :
    (opEnterTx p s).Ends (fun t => t.mode = .tx) fun _ t => t.mode = s.mode := by
  unfold opEnterTx
  split
  · assumption
  · refine (Res.Ends.of_state (P := fun t => t.mode = s.mode) (pin_keepsMode .ce false s)).andThen fun _ s1 h1 => ?_
    refine (Res.Ends.of_state (P := fun t => t.mode = s.mode) ?_).andThen fun _ s2 _ => rfl
    exact (updateConfigWith_keepsMode _ s1).trans h1

/-- What keeps the mode stays in Tx. -/
theorem KeepsMode.ends_tx {r : Res α} (h : Holds KeepsMode s r) (hs : s.mode = .tx) (m : Mode) :
    r.Ends (fun t => t.mode = .tx) fun _ t => t.mode = m ∨ t.mode = .tx :=
  (Res.Ends.of_state (P := fun t => t.mode = .tx) (h.trans hs)).mono (fun _ => id) fun _ _ => .inr

/-- R116, R126: `wait_tx_empty` either does not arrive in Tx or stays there. -/
theorem opWaitTxEmpty_mode (p : Config.Params) (s : State) :
    (opWaitTxEmpty p s).Ends (fun t => t.mode = .tx) fun _ t => t.mode = s.mode ∨ t.mode = .tx := by
  have S := (keepsMode_busSteps p).toSequential
  refine ((opEnterTx_mode p s).mono (fun _ => id) fun _ _ => .inl).andThen fun _ s1 h1 => ?_
  refine (KeepsMode.ends_tx (pollFifo_holds S trivial s1) h1 _).andThen fun x s2 h2 => ?_
  simp only
  split
  · refine (KeepsMode.ends_tx (S.transact _ s2 trivial) h2 _).andThen fun _ s3 h3 => ?_
    exact (KeepsMode.ends_tx (opWriteRegister_holds S trivial s3) h3 _).andThen fun _ _ h4 => .inr h4
  · split
    · exact .inr h2
    · exact KeepsMode.ends_tx (pin_keepsMode .ce false s2) h2 _

/-- R112, R126: `enter_rx` assigns its mode last. -/
theorem opEnterRx_mode (p : Config.Params) (s : State) :
    (opEnterRx p s).Ends (fun t => t.mode = .rx) fun _ t => t.mode = s.mode ∨ t.mode = .tx := by
  unfold opEnterRx
  split
  · assumption
  · refine (opWaitTxEmpty_mode p s).andThen fun _ s1 h1 => ?_
    refine (KeepsMode.ends_tx (pin_keepsMode .ce true s1) h1 _).andThen fun _ s2 h2 => ?_
    exact (KeepsMode.ends_tx (updateConfigWith_keepsMode _ s2) h2 _).andThen fun _ _ _ => rfl

/-- An operation that answers `()` and ends otherwise has ended early; a refusal changes no mode. -/
theorem mode_of_not_ok {i : Instr} {op : State → Res Unit} {P : Mode → Prop} {o : OpOutcome}
    (hop : hostOp s.params i s = unitOp op s) {done : State → Prop}
    (hends : (op s).Ends done fun _ t => P t.mode) (hrefused : P s.mode) (hexec : exec i s = .next t)
    (hout : t.outcomes = s.outcomes ++ [o]) (ho : o ≠ .ok .unit) : P t.mode := by
  obtain ⟨-, he⟩ | ⟨-, -, he⟩ := exec_cases i s <;> rw [he] at hexec <;> cases hexec
  · rw [finish_outcome hout, hop, unitOp] at ho
    rw [hop, unitOp]
    cases hr : op s with
    | done a s1 => exact absurd (by rw [hr]; rfl) ho
    | stop e s1 => rwa [hr] at hends
  · exact hrefused

/-- Settles O29: each transition assigns its mode last, and the only mode assigned before is that of the nested
`enter_tx`. -/
theorem failedTransitionsKeepMode : Obligations.FailedTransitionsKeepMode :=
  ⟨fun s _ _ => mode_of_not_ok (i := .enterTx) (P := (· = s.mode)) rfl (opEnterTx_mode s.params s) rfl,
    fun s _ _ => mode_of_not_ok (i := .enterRx) (P := fun m => m = s.mode ∨ m = .tx) rfl
      (opEnterRx_mode s.params s) (.inl rfl)⟩

/-- R125: the mode stays or becomes Tx or Rx. -/
def MovesToTxOrRx (s : State) (_ : Option Early) (t : State) : Prop :=
  t.mode = s.mode ∨ t.mode = .tx ∨ t.mode = .rx

theorem movesToTxOrRx_busSteps (p : Config.Params) : BusSteps p MovesToTxOrRx fun _ => True where
  refl _ := .inl rfl
  trans h h' := h'.elim (fun hmode => by rwa [MovesToTxOrRx, hmode]) .inr
  transact c s _ := .inl ((keepsMode_busSteps p).transact c s trivial)
  setTemps _ _ _ := .inl rfl
  updateCfg _ _ _ := .inl rfl
  configFault _ := .inl rfl

theorem movesToTxOrRx_rxSteps (p : Config.Params) : RxSteps p MovesToTxOrRx fun _ => True where
  toSequential := (movesToTxOrRx_busSteps p).toSequential
  lower s := .inl (pin_keepsMode .ce false s)
  clearPrimRx _ := .inl rfl
  toTx _ := .inr (.inl rfl)
  writeConfig _ := trivial
  block _ := .inl rfl
  poll := trivial
  flush := trivial
  writeStatus _ := trivial
  raiseCe s := .inl (pin_keepsMode .ce true s)
  setPrimRx _ := .inl rfl
  toRx _ := .inr (.inr rfl)

theorem hostOp_movesToTxOrRx {i : Instr} (hi : ∀ batch, i ≠ .construct batch) (s : State) :
    Holds MovesToTxOrRx s (hostOp p i s) := by
  have X := movesToTxOrRx_rxSteps p
  have S := X.toSequential
  by_cases hbus : BusOnly i
  · exact (movesToTxOrRx_busSteps p).hostOp hbus (fun _ _ => trivial) s
  · cases i with
    | construct batch => exact absurd rfl (hi batch)
    | ceEnable => exact S.map _ (X.raiseCe s)
    | ceDisable => exact S.map _ (X.lower s)
    | enterRx => exact S.map _ (opEnterRx_holds X s)
    | enterTx => exact S.map _ (opEnterTx_holds X.toTxSteps s)
    | send packet => exact S.map _ (opSend_holds X.toTxSteps s (.inl rfl) X.raiseCe fun _ => trivial)
    | waitTxReady => exact S.map _ (opWaitTxReady_holds X.toPollSteps s)
    | waitTxEmpty => exact S.map _ (opWaitTxEmpty_holds X.toPollSteps s)
    | waitRxReady => exact S.map _ (opWaitRxReady_holds X s)
    | read => exact S.map _ (opRead_holds X s (fun _ => .inl rfl) trivial fun _ _ => trivial)
    | _ => exact absurd trivial hbus

/-- Settles O50: the only modes an operation but `construct` assigns are Tx and Rx. -/
theorem standbyIsNotReentered : Obligations.StandbyIsNotReentered := by
  intro i s t hi hexec hs
  have moved : MovesToTxOrRx s none t :=
    of_exec (P := MovesToTxOrRx s none) (hostOp_movesToTxOrRx hi s) (.inl rfl) (fun _ _ => id) hexec
  refine moved.elim (fun hmode => ?_) id
  cases hm : s.mode with
  | standby => exact absurd hm hs
  | rx => exact .inr (hmode.trans hm)
  | tx => exact .inl (hmode.trans hm)

/-! ### The frame -/

/-- R112 to R118: `live`, the requests, the parameters and the cache but for `PRIM_RX` stay. -/
structure KeepsFrame (p : Config.Params) (s t : State) : Prop where
  live : t.live = s.live
  requests : t.requests = s.requests
  params : t.params = s.params
  cfg : ∀ k, k ≠ p.CFG_PRIM_RX → t.cfg.getLsbD k = s.cfg.getLsbD k

/-- The frame stays where the four fields it is made of do. -/
theorem KeepsFrame.of_eq (hl : t.live = s.live) (hr : t.requests = s.requests)
    (hp : t.params = s.params) (hc : t.cfg = s.cfg) : KeepsFrame p s t :=
  ⟨hl, hr, hp, fun _ _ => by rw [hc]⟩

theorem pin_keepsFrame (l : Line) (b : Bool) (s : State) : Holds (fun s _ t => KeepsFrame p s t) s (pin l b s) := by
  obtain ⟨s1, rfl | ⟨rest, rfl⟩, hend | hend⟩ := pin_cases l b s <;> rw [hend] <;>
    exact .of_eq (by simp) (by simp) (by simp) (by simp)

theorem setPrimRx_keepsFrame (x : Bool) (s : State) :
    KeepsFrame p s ((s.setTemps [s.cfg] [setPrimRx p s.cfg x]).setCfg (setPrimRx p s.cfg x)) :=
  ⟨rfl, rfl, rfl, setPrimRx_getLsbD p s.cfg x⟩

theorem keepsFrame_rxSteps (p : Config.Params) : RxSteps p (fun s _ t => KeepsFrame p s t) fun _ => True where
  refl _ := .of_eq rfl rfl rfl rfl
  trans h h' := ⟨h'.live.trans h.live, h'.requests.trans h.requests, h'.params.trans h.params,
    fun k hk => (h'.cfg k hk).trans (h.cfg k hk)⟩
  transact c s _ := by
    obtain hfault | ⟨-, -, ⟨events, hc⟩, -⟩ := transact_state p c s
    · rw [Holds, hfault]
      exact .of_eq rfl rfl rfl rfl
    · exact .of_eq hc.live hc.requests hc.params hc.cfg
  lower := pin_keepsFrame .ce false
  clearPrimRx := setPrimRx_keepsFrame false
  toTx _ := .of_eq rfl rfl rfl rfl
  writeConfig _ := trivial
  block _ := .of_eq rfl rfl rfl rfl
  poll := trivial
  flush := trivial
  writeStatus _ := trivial
  raiseCe := pin_keepsFrame .ce true
  setPrimRx := setPrimRx_keepsFrame true
  toRx _ := .of_eq rfl rfl rfl rfl

/-- Settles O45: the mode machine's own updates of the cache write `PRIM_RX` alone. -/
theorem modeMachineFrame : Obligations.ModeMachineFrame := by
  intro i s t hi hexec
  have X := keepsFrame_rxSteps s.params
  have S := X.toSequential
  have tooLong (u : State) : KeepsFrame s.params u (u.setFault true) :=
    .of_eq rfl rfl rfl rfl
  have run : KeepsFrame s.params s (hostOp s.params i s).state := by
    obtain rfl | rfl | ⟨packet, rfl⟩ | rfl | rfl | rfl | rfl := hi
    · exact S.map _ (opEnterRx_holds X s)
    · exact S.map _ (opEnterTx_holds X.toTxSteps s)
    · exact S.map _ (opSend_holds X.toTxSteps s (tooLong s) X.raiseCe fun _ => trivial)
    · exact S.map _ (opWaitTxReady_holds X.toPollSteps s)
    · exact S.map _ (opWaitTxEmpty_holds X.toPollSteps s)
    · exact S.map _ (opWaitRxReady_holds X s)
    · exact S.map _ (opRead_holds X s tooLong trivial fun _ _ => trivial)
  obtain ⟨hlive, hrequests, hparams, hcfg⟩ : KeepsFrame s.params s t :=
    of_exec run (.of_eq rfl rfl rfl rfl) (fun _ _ h => ⟨h.live, h.requests, h.params, h.cfg⟩) hexec
  exact ⟨hlive, hrequests, hparams, hcfg⟩

/-! ### Where CE is driven -/

/-- R113, R115, R116: on the way into Tx and in its polls CE is only lowered. -/
theorem avoidsRaise_pollSteps (p : Config.Params) : PollSteps p (Avoids (.pinWrite .ce true)) fun _ => True where
  toSequential := (avoids_busSteps p true).toSequential
  lower := pin_avoids (by decide)
  clearPrimRx _ := .of_silent rfl
  toTx _ := .of_silent rfl
  writeConfig _ := trivial
  block _ := .of_silent rfl
  poll := trivial
  flush := trivial
  writeStatus _ := trivial

/-- R152: `construct` lowers CE and does not raise it. -/
theorem opConstruct_avoidsRaise (batch : List BatchOp) (s : State) :
    Holds (Avoids (.pinWrite .ce true)) s (opConstruct p batch s) := by
  have B := avoids_busSteps p true
  rw [Holds, Avoids, Performs, opConstruct_trace, constructBody_eq]
  refine B.update (t := (s.setLive false).setFault false) (.of_silent rfl) ?_
  refine B.andThen (pin_avoids (by decide) _) fun _ s1 _ => B.andThen (pin_avoids (by decide) s1) fun _ s2 _ => ?_
  refine B.update (t := (s2.setCfg (constructCfg p)).setMode .standby) (.of_silent rfl) ?_
  refine B.andThen (opIsConnected_holds B.toSequential trivial _) fun connected s3 _ => ?_
  split
  · exact B.runBatch (fun _ _ => trivial) s3
  · exact .of_silent rfl

/-- R124: the operations in whose run CE may be driven high. -/
def MayRaiseCe (i : Instr) : Prop :=
  i = .ceEnable ∨ i = .enterRx ∨ (∃ p, i = .send p) ∨ i = .waitRxReady ∨ i = .read

/-- R124: the operations in whose run CE may be driven low. -/
def MayLowerCe (i : Instr) : Prop :=
  (∃ batch, i = .construct batch) ∨ i = .ceDisable ∨ i = .enterTx ∨ i = .enterRx ∨ (∃ p, i = .send p) ∨
  i = .waitTxReady ∨ i = .waitTxEmpty ∨ i = .waitRxReady ∨ i = .read

theorem hostOp_avoidsRaise {i : Instr} (hi : ¬ MayRaiseCe i) (s : State) :
    Holds (Avoids (.pinWrite .ce true)) s (hostOp p i s) := by
  have X := avoidsRaise_pollSteps p
  have S := X.toSequential
  by_cases hbus : BusOnly i
  · exact (avoids_busSteps p true).hostOp hbus (fun _ _ => trivial) s
  · cases i with
    | construct batch => exact opConstruct_avoidsRaise batch s
    | ceDisable => exact S.map _ (X.lower s)
    | enterTx => exact S.map _ (opEnterTx_holds X.toTxSteps s)
    | waitTxReady => exact S.map _ (opWaitTxReady_holds X s)
    | waitTxEmpty => exact S.map _ (opWaitTxEmpty_holds X s)
    | ceEnable | enterRx | send | waitRxReady | read => exact absurd (by simp [MayRaiseCe]) hi
    | _ => exact absurd trivial hbus

theorem hostOp_avoidsLower {i : Instr} (hi : ¬ MayLowerCe i) (s : State) :
    Holds (Avoids (.pinWrite .ce false)) s (hostOp p i s) := by
  have B := avoids_busSteps p false
  by_cases hbus : BusOnly i
  · exact B.hostOp hbus (fun _ _ => trivial) s
  · cases i with
    | ceEnable => exact B.map _ (pin_avoids (by decide) s)
    | construct | ceDisable | enterRx | enterTx | send | waitTxReady | waitTxEmpty | waitRxReady | read =>
      exact absurd (by simp [MayLowerCe]) hi
    | _ => exact absurd trivial hbus

/-- What the operation avoids, the instruction avoids. -/
theorem not_mem_of_avoids {x : Event} {i : Instr} {events : List Event}
    (hop : Holds (Avoids x) s (hostOp s.params i s)) (hexec : exec i s = .next t)
    (htrace : t.trace = s.trace ++ events) : x ∉ events := by
  obtain ⟨events', htrace', hn⟩ : Avoids x s none t :=
    of_exec (P := Avoids x s none) hop (.of_silent rfl) (fun _ _ => id) hexec
  obtain rfl : events' = events := List.append_cancel_left (htrace'.symm.trans htrace)
  exact hn

/-- Settles O51: every other operation avoids the write. -/
theorem whereCeIsDriven : Obligations.WhereCeIsDriven := by
  intro i s t events hexec htrace
  refine ⟨fun hmem => ?_, fun hmem => ?_⟩
  · by_contra hi
    exact not_mem_of_avoids (hostOp_avoidsRaise hi s) hexec htrace hmem
  · by_contra hi
    exact not_mem_of_avoids (hostOp_avoidsLower hi s) hexec htrace hmem

end Sys2Proof.Machine

/-! ## The host port's own answers

R136. -/

namespace Sys2Proof.Machine

theorem not_ready_iff {s : State} : ¬ Ready s ↔ s.live = false ∨ s.fault = true := by
  simp [Ready, imp_iff_not_or]

/-- R69, R136: a select code above the last one is read before any operand. -/
theorem decode_unassigned {p : Config.Params} {sel : Byte} (h : LAST_SEL < sel.toNat) (operands : List Byte) :
    decode p ⟨.op, sel :: operands⟩ = .error .unknownOperation := by
  simp [decode, decodeOp, h]

/-- Settles O11: the port's guard refuses before the operation runs, and the decoder before there is one. -/
theorem hostPortRefusals : Obligations.HostPortRefusals := by
  refine ⟨fun i s hi hs => ?_, fun s sel operands rest hr hsel => ?_⟩
  · exact exec_refused (not_or.2 ⟨not_exists.2 hi, not_ready_iff.2 hs⟩)
  · exact (step_of_request hr).trans (serveWith_of_decode_error (s := s.setRequests rest) (decode_unassigned hsel operands))

end Sys2Proof.Machine

/-! ## What an operation costs

R175: exchanges and CE writes are counted along each operation.  A nested operation that goes on and one that ends
early are bounded apart: the discard step of R120 makes two exchanges more, but nothing follows it. -/

namespace Sys2Proof.Machine

/-- R175: at most `x` exchanges and `c` writes of CE have followed the events `start`. -/
def Spent (start : List Event) (x c : Nat) (s : State) : Prop :=
  ∃ events, s.trace = start ++ events ∧ exchanges events ≤ x ∧ events.countP Event.isCeWrite ≤ c

/-- R175: an operation that goes on has spent at most that, and one that ends early no more than five exchanges and
three writes of CE. -/
def Affords {α : Type} (start : List Event) (x c : Nat) (r : Res α) : Prop :=
  r.Ends (Spent start x c) fun _ => Spent start 5 3

variable {p : Config.Params} {start : List Event} {s t : State} {x c x' c' : Nat} {α : Type}

theorem Spent.nothing (s : State) : Spent s.trace 0 0 s :=
  ⟨[], (List.append_nil _).symm, Nat.le_refl 0, Nat.le_refl 0⟩

theorem Spent.mono (h : Spent start x c s) (hx : x ≤ x' := by decide) (hc : c ≤ c' := by decide) :
    Spent start x' c' s := by
  obtain ⟨events, htrace, hxs, hcs⟩ := h
  exact ⟨events, htrace, hxs.trans hx, hcs.trans hc⟩

theorem Spent.setTemps (h : Spent start x c s) (old new : List Byte) : Spent start x c (s.setTemps old new) := h

theorem Spent.setCfg (h : Spent start x c s) (b : Byte) : Spent start x c (s.setCfg b) := h

theorem Spent.setMode (h : Spent start x c s) (m : Mode) : Spent start x c (s.setMode m) := h

/-- What follows is added to the count. -/
theorem Spent.append {events : List Event} (h : Spent start x c s) (htrace : t.trace = s.trace ++ events)
    (hx : x + exchanges events ≤ x') (hc : c + events.countP Event.isCeWrite ≤ c') : Spent start x' c' t := by
  obtain ⟨before, hbefore, hxs, hcs⟩ := h
  refine ⟨before ++ events, by rw [htrace, hbefore, List.append_assoc], ?_, ?_⟩
  · rw [exchanges, List.countP_append]
    exact (Nat.add_le_add_right hxs _).trans hx
  · rw [List.countP_append]
    exact (Nat.add_le_add_right hcs _).trans hc

/-- An operation that has spent no more than the bounds, whichever way it ends. -/
theorem Affords.of_state {r : Res α} (h : Spent start x c r.state) (hx : x ≤ 5) (hc : c ≤ 3) : Affords start x c r :=
  (Res.Ends.of_state h).mono (fun _ => id) fun _ _ h => h.mono hx hc

theorem Affords.state {r : Res α} (h : Affords start x c r) (hx : x ≤ 5) (hc : c ≤ 3) : Spent start 5 3 r.state := by
  cases r with
  | done a t => exact Spent.mono h hx hc
  | stop e t => exact h

theorem Affords.mono {r : Res α} (h : Affords start x c r) (hx : x ≤ x') (hc : c ≤ c') : Affords start x' c' r :=
  Res.Ends.mono h (fun _ h => h.mono hx hc) fun _ _ => id

/-! ### The primitives -/

theorem pin_ce_affords (h : Spent start x c s) (b : Bool) (hx : x ≤ 5 := by decide) (hc : c + 1 ≤ 3 := by decide) :
    Affords start x (c + 1) (pin .ce b s) := by
  refine .of_state ?_ hx hc
  obtain ⟨t, htrace, hend | hend⟩ := pin_performs .ce b s <;> rw [hend] <;>
    exact h.append htrace (Nat.le_refl x) (Nat.le_refl (c + 1))

/-- R100: a transaction makes at most one exchange, and writes CSN only. -/
theorem transact_affords (h : Spent start x c s) (cmd : Command) (hx : x + 1 ≤ 5 := by decide)
    (hc : c ≤ 3 := by decide) : Affords start (x + 1) c (transact p cmd s) := by
  refine .of_state ?_ hx hc
  obtain ⟨events, htrace, rfl | ⟨-, rfl | ⟨r, rfl⟩⟩⟩ := transact_events p cmd s
  · exact h.append htrace (Nat.le_succ x) (Nat.le_refl c)
  · exact h.append htrace (Nat.le_succ x) (Nat.le_refl c)
  · exact h.append htrace (Nat.le_refl (x + 1)) (Nat.le_refl c)

/-! ### The Transport -/

theorem opReadRegister_affords (h : Spent start x c s) (a : RegAddr) (w : Nat) (hx : x + 1 ≤ 5 := by decide)
    (hc : c ≤ 3 := by decide) : Affords start (x + 1) c (opReadRegister p a w s) :=
  (transact_affords h _ hx hc).map _

theorem opWriteRegister_affords (h : Spent start x c s) (a : RegAddr) (w : Nat) (v : List Byte)
    (hx : x + 1 ≤ 5 := by decide) (hc : c ≤ 3 := by decide) : Affords start (x + 1) c (opWriteRegister p a w v s) :=
  (transact_affords h _ hx hc).map _

theorem opIsConnected_affords (h : Spent start 0 0 s) : Affords start 1 0 (opIsConnected p s) :=
  (opReadRegister_affords h _ _).map _

theorem updateConfigWith_affords (h : Spent start x c s) (f : Byte → Byte × MutResult) (hx : x + 1 ≤ 5 := by decide)
    (hc : c ≤ 3 := by decide) : Affords start (x + 1) c (updateConfigWith p f s) := by
  by_cases hnew : (f s.cfg).1 = s.cfg
  · rw [updateConfigWith_unchanged hnew]
    exact h.mono (Nat.le_succ x) (Nat.le_refl c)
  · rw [updateConfigWith_changed hnew]
    exact (opWriteRegister_affords ((h.setTemps _ _).setCfg _) _ _ _ hx hc).map _

/-- R103: `update_register` makes a read and at most one write. -/
theorem opUpdateRegister_affords (h : Spent start 0 0 s) (a : RegAddr) (w : Nat) (f : Mutator) :
    Affords start 2 0 (opUpdateRegister p a w f s) := by
  unfold opUpdateRegister
  split
  · exact h.mono
  · refine (opReadRegister_affords h a w).andThen fun x s1 h1 => ?_
    simp only
    split
    · exact (opWriteRegister_affords (h1.setTemps _ _) _ _ _).map _
    · exact (h1.setTemps _ _).mono

/-! ### The mode machine -/

theorem opEnterTx_affords (h : Spent start 0 0 s) : Affords start 1 1 (opEnterTx p s) := by
  unfold opEnterTx
  split
  · exact h.mono
  · exact (pin_ce_affords h false).andThen fun _ _ h1 =>
      (updateConfigWith_affords h1 _).andThen fun _ _ h2 => h2.setMode _

theorem pollFifo_affords (h : Spent start x c s) (hx : x + 1 ≤ 5 := by decide) (hc : c ≤ 3 := by decide) :
    Affords start (x + 1) c (pollFifo p s) :=
  (opReadRegister_affords h _ _ hx hc).map _

/-- R120: two exchanges, behind which the operation ends; what it would have spent going on is of no matter. -/
theorem discardStuck_affords (h : Spent start 2 1 s) : Affords start x c (discardStuck p s) :=
  (transact_affords h _).andThen fun _ _ h1 => (opWriteRegister_affords h1 _ _ _).andThen fun _ _ h2 => h2.mono

theorem opWaitTxReady_affords (h : Spent start 0 0 s) : Affords start 2 1 (opWaitTxReady p s) := by
  refine (opEnterTx_affords h).andThen fun _ s1 h1 => (pollFifo_affords h1).andThen fun _ s2 h2 => ?_
  simp only
  split
  · exact discardStuck_affords h2
  · split
    · exact h2.mono
    · exact h2

theorem opWaitTxEmpty_affords (h : Spent start 0 0 s) : Affords start 2 2 (opWaitTxEmpty p s) := by
  refine (opEnterTx_affords h).andThen fun _ s1 h1 => (pollFifo_affords h1).andThen fun _ s2 h2 => ?_
  simp only
  split
  · exact discardStuck_affords h2
  · split
    · exact h2.mono
    · exact pin_ce_affords h2 false

/-- R112: `enter_rx` that arrives has made at most three exchanges and three writes of CE. -/
theorem opEnterRx_affords (h : Spent start 0 0 s) : Affords start 3 3 (opEnterRx p s) := by
  unfold opEnterRx
  split
  · exact h.mono
  · exact (opWaitTxEmpty_affords h).andThen fun _ _ h1 =>
      (pin_ce_affords h1 true).andThen fun _ _ h2 =>
        (updateConfigWith_affords h2 _).andThen fun _ _ h3 => h3.setMode _

theorem opSend_affords (h : Spent start 0 0 s) (packet : List Byte) : Affords start 2 2 (opSend p packet s) := by
  unfold opSend
  split
  · exact h.mono
  · exact (opEnterTx_affords h).andThen fun _ _ h1 =>
      (transact_affords h1 _).andThen fun _ _ h2 => pin_ce_affords h2 true

theorem opWaitRxReady_affords (h : Spent start 0 0 s) : Affords start 4 3 (opWaitRxReady p s) := by
  refine (opEnterRx_affords h).andThen fun _ s1 h1 => (pollFifo_affords h1).andThen fun _ s2 h2 => ?_
  simp only
  split
  · exact h2.mono
  · exact h2

/-- R118: `read` behind `enter_rx` makes two exchanges more. -/
theorem opRead_affords (h : Spent start 0 0 s) : Affords start 5 3 (opRead p s) := by
  refine (opEnterRx_affords h).andThen fun _ s1 h1 => (transact_affords h1 _).andThen fun _ s2 h2 => ?_
  simp only
  split
  · exact h2.mono
  · exact (transact_affords h2 _).map _

theorem opClearInterrupts_affords (h : Spent start 0 0 s) : Affords start 1 0 (opClearInterrupts p s) :=
  (opWriteRegister_affords h _ _ _).map _

/-! ### Every instruction -/

theorem hostOp_affords {i : Instr} (hi : ∀ batch, i ≠ .construct batch) (h : Spent start 0 0 s) :
    Affords start 5 3 (hostOp p i s) := by
  have wrapped {α β : Type} {x c : Nat} {r : Res α} (g : α → β) (hr : Affords start x c r) (hx : x ≤ 5 := by decide)
      (hc : c ≤ 3 := by decide) : Affords start 5 3 (r.andThen fun a t => .done (g a) t) :=
    (hr.mono hx hc).map g
  cases i with
  | construct batch => exact absurd rfl (hi batch)
  | wireReadRegister | wireWriteRegister | wireReadRxPayload | wireReadRxPayloadWidth | wireWriteTxPayload | wireFlushTx
  | wireFlushRx | wireActivate | sendCommand => exact wrapped _ (transact_affords h _)
  | ceEnable => exact wrapped _ (pin_ce_affords h true)
  | ceDisable => exact wrapped _ (pin_ce_affords h false)
  | writeRegister a w v => exact wrapped _ (opWriteRegister_affords h a w v)
  | readRegister a w => exact wrapped _ (opReadRegister_affords h a w)
  | updateRegister a w f => exact wrapped _ (opUpdateRegister_affords h a w f)
  | updateConfig f => exact wrapped _ (updateConfigWith_affords h _)
  | isConnected => exact wrapped _ (opIsConnected_affords h)
  | enterRx => exact wrapped _ (opEnterRx_affords h)
  | enterTx => exact wrapped _ (opEnterTx_affords h)
  | send packet => exact wrapped _ (opSend_affords h packet)
  | waitTxReady => exact wrapped _ (opWaitTxReady_affords h)
  | waitTxEmpty => exact wrapped _ (opWaitTxEmpty_affords h)
  | waitRxReady => exact wrapped _ (opWaitRxReady_affords h)
  | read => exact wrapped _ (opRead_affords h)
  | clearInterrupts => exact wrapped _ (opClearInterrupts_affords h)

/-- Settles O14: each operation is counted along its steps; a refusal performs nothing. -/
theorem atMostFiveTransactions : Obligations.AtMostFiveTransactions := by
  intro i s t events hi hexec htrace
  have run := (hostOp_affords (p := s.params) hi (.nothing s)).state (Nat.le_refl 5) (Nat.le_refl 3)
  obtain ⟨events', htrace', hx, hc⟩ : Spent s.trace 5 3 t :=
    of_exec run (Spent.nothing s).mono (fun _ _ => id) hexec
  obtain rfl : events' = events := List.append_cancel_left (htrace'.symm.trans htrace)
  exact ⟨hx, hc⟩

end Sys2Proof.Machine

/-! ## A CONFIG write that is not repeated

R164, R147: `enter_tx` whose CONFIG write failed, and `enter_tx` again. -/

namespace Sys2Proof.Machine

/-- What is answered to the host takes no answer of the environment. -/
theorem Answers.answer {s : State} {lines : Nat} {xs : List Answer} (ha : Answers s lines xs) (o : OpOutcome) :
    Answers (s.answer o) lines xs := ha

/-- R104, R113: where the cache has `PRIM_RX` clear, `enter_tx` lowers CE and finds nothing to write. -/
theorem opEnterTx_unchanged_ran {s : State} (hm : s.mode ≠ .tx) (hcfg : txCfg s = s.cfg) (ha : Answers s 1 []) :
    ∃ t, opEnterTx s.params s = .done () t ∧ Ran s t .tx s.cfg false [.pinWrite .ce false] 1 0 := by
  have hrun := opEnterTx_ran (s := s) (rx0 := [0#8, 0#8]) rfl
  simp only [txLines, txAnswers, txEvents, txCe, if_neg hm, configAnswers, configWrite, hcfg, ne_eq, not_true_eq_false,
    if_false] at hrun
  exact hrun ha

/-- R113: clearing `PRIM_RX` once more changes nothing. -/
theorem txCfg_of_primRx_cleared {s : State} {c : Byte} (hc : s.cfg = setPrimRx s.params c false) : txCfg s = s.cfg := by
  rw [txCfg, hc, setPrimRx_setPrimRx, ite_self]

/-- Settles O30: the failed write leaves the cache with `PRIM_RX` clear, so the second `enter_tx` has nothing to
write. -/
theorem failedConfigWriteIsNotRepeated : Obligations.FailedConfigWriteIsNotRepeated := by
  intro s e hready hm hchanges ha
  have hcfg : txCfg s = setPrimRx s.params s.cfg false := if_neg hm
  obtain ⟨s1, hfails, r1⟩ := opEnterTx_err_ran hm hchanges (ha.front (xs := [.err e]) (ys := []) (l' := 3) (by omega))
  have ha1 : Answers s1 1 [] := ha.rest (xs := [.err e]) (l1 := 3) rfl r1
  have first := r1.leaves (.transportFailure e) hready
  rw [hcfg] at first
  obtain ⟨s2, hdone, r2⟩ := opEnterTx_unchanged_ran (first.mode.trans_ne hm)
    (txCfg_of_primRx_cleared (by rw [first.cfg, first.params])) (ha1.answer _)
  obtain ⟨u, hexec, second⟩ := r2.exec_done (i := .enterTx) ⟨first.live, first.fault⟩ (unitOp_done hdone)
  refine ⟨_, u, ?_, hexec, first.mode, first.cfg, second.mode, second.cfg.trans first.cfg, second.ce, ?_, ?_⟩
  · rw [exec_ready hready, hostOp, unitOp_stop hfails]
    rfl
  · rw [second.trace, first.trace, List.append_assoc]
  · rw [second.outcomes, first.outcomes, List.append_assoc, List.singleton_append]

end Sys2Proof.Machine

/-! ## Construction in a given environment

R152 to R156: the two opening line writes and the connectivity check from every state, the batch behind them, and what
`construct` leaves of the block. -/

namespace Sys2Proof.Machine

variable {p : Config.Params} {s t u : State} {st v : Byte} {batch : List BatchOp}

/-! ### The opening -/

/-- R11: a write of CSN that succeeds. -/
theorem pin_csn_ran (b : Bool) {xs : List Answer} (ha : Answers s 1 xs) :
    ∃ t, pin .csn b s = .done () t ∧ Ran s t s.mode s.cfg s.ce [.pinWrite .csn b] 1 0 := by
  obtain ⟨hlines, -⟩ := ha
  match hs : s.lineAnswers, hlines with
  | a :: rest, hlines =>
    obtain rfl : a = true := by simpa using hlines
    exact ⟨_, pin_ok _ _ hs, rfl, rfl, rfl, rfl, rfl, rfl, rfl, rfl, by simp [hs], rfl, rfl⟩

/-- R152: the block once `live` and `fault` are cleared. -/
def State.bitsCleared (s : State) : State := (s.setLive false).setFault false

/-- R152: the events before the connectivity check. -/
def openingEvents : List Event := [.pinWrite .ce false, .pinWrite .csn true]

/-- R152: up to the connectivity check: where both line writes succeed, the block is in Standby with the initial
cache. -/
theorem constructBody_opens (p : Config.Params) (batch : List BatchOp) {lines : Nat} {xs : List Answer}
    (ha : Answers s (2 + lines) xs) :
    ∃ t, Answers t lines xs ∧ Ran s.bitsCleared t .standby (initialCfg p) false openingEvents 2 0 ∧
      constructBody p batch s = (opIsConnected p t).andThen fun connected u =>
        if connected = true then runBatch p batch u else .stop .notConnected u := by
  have ha : Answers s.bitsCleared (2 + lines) ([] ++ xs) := ha
  obtain ⟨s1, h1, r1⟩ := pin_ce_ran false (ha.front (l' := 1) (by omega))
  have ha1 : Answers s1 (1 + lines) ([] ++ xs) := ha.rest (xs := []) (by omega) r1
  obtain ⟨s2, h2, r2⟩ := pin_csn_ran true (ha1.front (l' := 1) (by omega))
  have r := r1.trans r2
  have after : Answers s2 lines xs := ha.rest (xs := []) rfl r
  refine ⟨(s2.setCfg (constructCfg p)).setMode .standby, after, ?_, ?_⟩
  · exact ⟨r.params, rfl, constructCfg_eq p, r.ce.trans r1.ce, r.live, r.fault, r.trace, r.outcomes, r.lineAnswers,
      r.exchAnswers, r.requests⟩
  · rw [State.bitsCleared] at h1
    rw [constructBody, h1, Res.andThen_done, h2, Res.andThen_done]

/-- R105: the connectivity check that is answered. -/
theorem opIsConnected_ran (ha : Answers s 2 [.ok [st, v]]) :
    ∃ t, opIsConnected p s = .done (plausibleAw v) t ∧
      Ran s t s.mode s.cfg s.ce (transactionEvents (encodeFrame p (.readRegister p.ADDR_SETUP_AW 1)) (.ok [st, v]))
        2 1 := by
  obtain ⟨t, h, r⟩ := opReadRegister_ran (p := p) (a := p.ADDR_SETUP_AW) (w := 1) rfl ha rfl
  exact ⟨t, by rw [opIsConnected, h]; rfl, r⟩

/-- R105, R143: the connectivity check whose exchange fails. -/
theorem opIsConnected_err_ran {e : TransportError} (ha : Answers s 2 [.err e]) :
    ∃ t, opIsConnected p s = .stop (.transportFailure e) t ∧
      Ran s t s.mode s.cfg s.ce (transactionEvents (encodeFrame p (.readRegister p.ADDR_SETUP_AW 1)) (.err e))
        2 1 := by
  obtain ⟨t, h, r⟩ := opReadRegister_err_ran (p := p) (a := p.ADDR_SETUP_AW) (w := 1) rfl ha
  exact ⟨t, by rw [opIsConnected, h]; rfl, r⟩

/-- R152: the events up to the batch, by what answers the connectivity check. -/
def checkEvents (p : Config.Params) (r : Answer) : List Event :=
  openingEvents ++ transactionEvents (encodeFrame p (.readRegister p.ADDR_SETUP_AW 1)) r

/-- R105: the check passes on a byte of at most 3. -/
theorem plausibleAw_iff_le : plausibleAw v = true ↔ v.toNat ≤ 3 := decide_eq_true_iff

/-- R152, R155: where the connectivity check is answered, its answer decides whether the batch is run. -/
theorem constructBody_checked (p : Config.Params) (batch : List BatchOp) {lines : Nat} {xs : List Answer}
    (ha : Answers s (4 + lines) (.ok [st, v] :: xs)) :
    ∃ t, Answers t lines xs ∧ Ran s.bitsCleared t .standby (initialCfg p) false (checkEvents p (.ok [st, v])) 4 1 ∧
      constructBody p batch s = if plausibleAw v = true then runBatch p batch t else .stop .notConnected t := by
  obtain ⟨s1, ha1, r1, hbody⟩ := constructBody_opens p batch (lines := 2 + lines) (ha := by rwa [← Nat.add_assoc])
  obtain ⟨t, hcheck, r2⟩ := opIsConnected_ran (p := p) (ha1.front (xs := [_]) (l' := 2) (by omega))
  have r := r1.trans r2
  rw [r1.mode, r1.cfg, r1.ce] at r
  exact ⟨t, ha1.rest (xs := [_]) rfl r2, r, by rw [hbody, hcheck, Res.andThen_done]⟩

/-- R155: a construction whose connectivity check fails. -/
theorem constructBody_check_fails (p : Config.Params) (batch : List BatchOp) {e : TransportError}
    (ha : Answers s 4 [.err e]) :
    ∃ t, Ran s.bitsCleared t .standby (initialCfg p) false (checkEvents p (.err e)) 4 1 ∧
      constructBody p batch s = .stop (.transportFailure e) t := by
  obtain ⟨s1, ha1, r1, hbody⟩ := constructBody_opens p batch (lines := 2) (ha := ha)
  obtain ⟨t, hcheck, r2⟩ := opIsConnected_err_ran (p := p) ha1
  have r := r1.trans r2
  rw [r1.mode, r1.cfg, r1.ce] at r
  exact ⟨t, r, by rw [hbody, hcheck, Res.andThen_stop]⟩

/-! ### What the host is told -/

/-- R32: forgetting the working registers is no concern of anything else. -/
theorem forgetWorking_ran (s : State) : Ran s s.forgetWorking s.mode s.cfg s.ce [] 0 0 := by
  constructor <;> simp [State.forgetWorking]

/-- R32, R152: what `construct` leaves where its body has run to the end. -/
theorem exec_construct_done {m : Mode} {c : Byte} {ce : Bool} {events : List Event} {lines exchanges : Nat}
    (hbody : constructBody s.params batch s = .done () t)
    (r : Ran s.bitsCleared t m c ce events lines exchanges) :
    ∃ t, exec (.construct batch) s = .next t ∧ Leaves s t m c ce events (.ok .unit) lines exchanges := by
  have f := forgetWorking_ran (t.setLive true)
  refine ⟨(t.setLive true).forgetWorking.answer (.ok .unit), ?_, f.params.trans r.params, f.live, f.fault.trans r.fault,
    f.mode.trans r.mode, f.cfg.trans r.cfg, f.ce.trans r.ce, ?_, ?_, f.lineAnswers.trans r.lineAnswers,
    f.exchAnswers.trans r.exchAnswers, f.requests.trans r.requests⟩
  · rw [exec_construct, opConstruct, hbody]
    simp only [Res.finish, Res.state_done, Res.outcome_done]
  · rw [State.answer_trace, f.trace, List.append_nil]
    exact r.trace
  · rw [State.answer_outcomes, f.outcomes]
    exact congrArg (· ++ _) r.outcomes

/-- R155: what the host sees of a construction that has ended early. -/
theorem exec_construct_stops {e : Early} (hbody : constructBody s.params batch s = .stop e t) :
    ∃ u, exec (.construct batch) s = .next u ∧ u.outcomes = s.outcomes ++ [e.toOutcome] ∧ u.trace = t.trace := by
  refine ⟨_, exec_construct batch s, ?_, ?_⟩
  · have hkept := (onlyPerforms_updateClosed.opConstruct s.params batch s).outcomes
    rw [Res.finish, State.answer_outcomes, hkept, opConstruct, hbody]
    rfl
  · rw [Res.finish, State.answer_trace, opConstruct_trace, hbody]
    rfl

/-! ### The batch -/

/-- R152: the events of transactions that are answered. -/
def madeEvents (p : Config.Params) (made : List (Command × List Byte)) : List Event :=
  made.flatMap fun x => transactionEvents (encodeFrame p x.1) (.ok x.2)

/-- R152: the answers these transactions take. -/
def madeAnswers (made : List (Command × List Byte)) : List Answer := made.map fun x => .ok x.2

/-- R152: from `s` to `t` exactly these transactions are made, and the cache is `c` after them. -/
def Made (p : Config.Params) (s t : State) (c : Byte) (made : List (Command × List Byte)) : Prop :=
  Ran s t s.mode c s.ce (madeEvents p made) (2 * made.length) made.length

/-- The environment answers these transactions. -/
def AnswersMade (s : State) (made : List (Command × List Byte)) : Prop :=
  Answers s (2 * made.length) (madeAnswers made)

variable {c c' : Byte} {xs ys made : List (Command × List Byte)}

theorem Made.trans (h : Made p s t c xs) (h' : Made p t u c' ys) : Made p s u c' (xs ++ ys) := by
  have r := Ran.trans h h'
  rw [h.mode, h.ce, madeEvents, madeEvents, ← List.flatMap_append, ← Nat.mul_add, ← List.length_append] at r
  exact r

theorem AnswersMade.front (ha : AnswersMade s (xs ++ ys)) : AnswersMade s xs := by
  rw [AnswersMade, madeAnswers, List.map_append] at ha
  exact Answers.front ha (Nat.mul_le_mul_left 2 (by simp))

theorem AnswersMade.rest (ha : AnswersMade s (xs ++ ys)) (h : Made p s t c xs) : AnswersMade t ys := by
  rw [AnswersMade, madeAnswers, List.map_append] at ha
  refine Answers.rest ha (l1 := 2 * xs.length) ?_ (by rw [List.length_map]; exact h)
  rw [List.length_append, Nat.mul_add]

/-- A transaction that is answered, made on its own. -/
theorem Made.of_ran {cmd : Command} {rx : List Byte}
    (r : Ran s t s.mode c s.ce (transactionEvents (encodeFrame p cmd) (.ok rx)) 2 1) : Made p s t c [(cmd, rx)] := by
  rw [Made, madeEvents, List.flatMap_singleton]
  exact r

/-- The sequencer's temporaries are no concern of a run. -/
theorem Ran.setTemps {m : Mode} {ce : Bool} {events : List Event} {lines exchanges : Nat}
    (r : Ran s t m c ce events lines exchanges) (old new : List Byte) :
    Ran s (t.setTemps old new) m c ce events lines exchanges :=
  ⟨r.params, r.mode, r.cfg, r.ce, r.live, r.fault, r.trace, r.outcomes, r.lineAnswers, r.exchAnswers, r.requests⟩

/-- R103: `update_register` whose mutator keeps the value makes its read. -/
theorem opUpdateRegister_same_made {a : RegAddr} {w : Nat} {f : Mutator} {old : List Byte} (hw : widthOk w = true)
    (other : a ≠ p.ADDR_CONFIG) (fits : old.length = w) (same : (evalMutator f old).1 = old)
    (ha : AnswersMade s [(.readRegister a w, st :: old)]) :
    ∃ r t, opUpdateRegister p a w f s = .done r t ∧ Made p s t s.cfg [(.readRegister a w, st :: old)] := by
  obtain ⟨s1, hread, r1⟩ := opReadRegister_ran (p := p) hw ha fits
  exact ⟨_, _, opUpdateRegister_unchanged other hread same, .of_ran (r1.setTemps _ _)⟩

/-- R103: `update_register` whose mutator changes the value makes its read and its write. -/
theorem opUpdateRegister_writes_made {a : RegAddr} {w : Nat} {f : Mutator} {old rx : List Byte} (hw : widthOk w = true)
    (hf : f.wf w = true) (other : a ≠ p.ADDR_CONFIG) (fits : old.length = w) (changed : (evalMutator f old).1 ≠ old)
    (fits' : rx.length = 1 + w)
    (ha : AnswersMade s ([(.readRegister a w, st :: old)] ++ [(.writeRegister a w (evalMutator f old).1, rx)])) :
    ∃ r t, opUpdateRegister p a w f s = .done r t ∧
      Made p s t s.cfg ([(.readRegister a w, st :: old)] ++ [(.writeRegister a w (evalMutator f old).1, rx)]) := by
  have hwf : Command.wf (.writeRegister a w (evalMutator f old).1) = true := by
    simp [Command.wf, hw, evalMutator_length hf fits]
  obtain ⟨s1, hread, r1⟩ := opReadRegister_ran (p := p) hw ha.front fits
  have read : Made p s (s1.setTemps old (evalMutator f old).1) s.cfg [(.readRegister a w, st :: old)] :=
    .of_ran (r1.setTemps _ _)
  obtain ⟨t, hwrite, r2⟩ := opWriteRegister_ran (p := p) hwf (ha.rest read) fits'
  refine ⟨_, t, by rw [opUpdateRegister_changed other hread changed, hwrite, Res.andThen_done], ?_⟩
  have write := Made.of_ran r2
  rw [read.cfg] at write
  exact read.trans write

/-- A batch is its first element and the rest of it. -/
theorem runBatch_cons_made {op : BatchOp} {ops : List BatchOp} (ha : AnswersMade s (xs ++ ys))
    (first : AnswersMade s xs → ∃ t, runBatchOp p op s = .done () t ∧ Made p s t c xs)
    (rest : ∀ t, t.cfg = c → AnswersMade t ys → ∃ u, runBatch p ops t = .done () u ∧ Made p t u c' ys) :
    ∃ u, runBatch p (op :: ops) s = .done () u ∧ Made p s u c' (xs ++ ys) := by
  obtain ⟨t, hop, hfront⟩ := first ha.front
  obtain ⟨u, hops, hback⟩ := rest t hfront.cfg (ha.rest hfront)
  exact ⟨u, by rw [runBatch, hop, Res.andThen_done, hops], hfront.trans hback⟩

/-- R152: a batch whose transactions are answered makes exactly them, in list order. -/
theorem runBatch_made (h : BatchMakes p c batch made c') (hcfg : s.cfg = c) (ha : AnswersMade s made) :
    ∃ t, runBatch p batch s = .done () t ∧ Made p s t c' made := by
  induction h generalizing s with
  | nil cfg => exact ⟨s, rfl, hcfg ▸ Ran.refl s⟩
  | send cmd rx wf short fits _ ih =>
    subst hcfg
    refine runBatch_cons_made (xs := [_]) ha (fun ha => ?_) fun _ => ih
    obtain ⟨t, hrun, r⟩ := transact_ran (p := p) wf short ha fits
    exact ⟨t, by rw [runBatchOp, hrun, Res.andThen_done], .of_ran r⟩
  | write a w v rx wf fits _ ih =>
    subst hcfg
    refine runBatch_cons_made (xs := [_]) ha (fun ha => ?_) fun _ => ih
    obtain ⟨t, hrun, r⟩ := opWriteRegister_ran (p := p) wf ha fits
    exact ⟨t, by rw [runBatchOp, hrun, Res.andThen_done], .of_ran r⟩
  | updateSame a w f st old wf other fits same _ ih =>
    subst hcfg
    obtain ⟨hw, -⟩ : widthOk w = true ∧ f.wf w = true := by simpa [BatchOp.wf] using wf
    refine runBatch_cons_made (xs := [_]) ha (fun ha => ?_) fun _ => ih
    obtain ⟨_, t, hrun, hmade⟩ := opUpdateRegister_same_made hw other fits same ha
    exact ⟨t, by rw [runBatchOp, hrun, Res.andThen_done], hmade⟩
  | updateWrites a w f st old rx wf other fits changed fits' _ ih =>
    subst hcfg
    obtain ⟨hw, hf⟩ : widthOk w = true ∧ f.wf w = true := by simpa [BatchOp.wf] using wf
    refine runBatch_cons_made (xs := [_] ++ [_]) ha (fun ha => ?_) fun _ => ih
    obtain ⟨_, t, hrun, hmade⟩ := opUpdateRegister_writes_made hw hf other fits changed fits' ha
    exact ⟨t, by rw [runBatchOp, hrun, Res.andThen_done], hmade⟩
  | configSame f wf same _ ih =>
    subst hcfg
    refine runBatch_cons_made (xs := []) ha (fun _ => ?_) fun _ => ih
    refine ⟨_, by rw [runBatchOp, opUpdateConfig, updateConfigWith_unchanged same, Res.andThen_done], ?_⟩
    rw [same]
    exact ⟨rfl, rfl, rfl, rfl, rfl, rfl, (List.append_nil _).symm, rfl, rfl, rfl, rfl⟩
  | configWrites f rx wf changed fits _ ih =>
    subst hcfg
    refine runBatch_cons_made (xs := [_]) ha (fun ha => ?_) fun _ => ih
    have hrun := updateConfigWith_ran (p := p) (f := evalMutatorByte f) (s := s) fits
    simp only [configAnswers, configWrite, if_pos changed] at hrun
    obtain ⟨t, hrun, r⟩ := hrun ha
    exact ⟨t, by rw [runBatchOp, opUpdateConfig, hrun, Res.andThen_done], .of_ran r⟩

/-- Settles O39: the opening and the check from every state, then the batch, then `live`. -/
theorem constructRunsItsBatch : Obligations.ConstructRunsItsBatch := by
  intro s st v batch made cfg hv hmakes ha
  obtain ⟨s1, ha1, r1, hbody⟩ := constructBody_checked s.params batch ha
  obtain ⟨t, hbatch, r2⟩ := runBatch_made hmakes r1.cfg ha1
  rw [if_pos (plausibleAw_iff_le.2 hv), hbatch] at hbody
  have r := r1.trans r2
  rw [r1.mode, r1.ce] at r
  exact exec_construct_done hbody r

/-- R17, R152: a construction that has not faulted leaves chip-select high. -/
theorem exec_construct_csn (hexec : exec (.construct batch) s = .next t) (hfault : t.fault = false) : t.csn = true := by
  rw [exec_construct] at hexec
  cases hexec
  exact opConstruct_csnReleased s.params batch s hfault

/-- Settles O38: the case of the empty batch, which makes no transaction. -/
theorem constructCompletes : Obligations.ConstructCompletes := by
  intro s st v hv ha
  obtain ⟨t, hexec, hleaves⟩ := constructRunsItsBatch s st v [] [] _ hv (.nil _) ha
  exact ⟨t, hexec, exec_construct_csn hexec hleaves.fault, by simpa using hleaves⟩

/-! ### A construction that fails -/

/-- R155: CE is low and CSN high. -/
def LinesIdle (s : State) : Prop := s.ce = false ∧ s.csn = true

/-- R135: the early end is a failed line write. -/
def Early.IsLineFailure (e : Early) : Prop := ∃ l, e = .fault (.lineWriteFailed l)

/-- R155, R135: unless a line write fails the run keeps the lines idle. -/
def KeepsLinesIdle (s : State) (e : Option Early) (t : State) : Prop :=
  LinesIdle s → (∀ x, e = some x → ¬ x.IsLineFailure) → LinesIdle t

/-- R100: a transaction writes CSN only, and leaves it high if its line writes succeed. -/
theorem transact_keepsLinesIdle (cmd : Command) (s : State) : Holds KeepsLinesIdle s (transact p cmd s) := by
  rintro ⟨hce, hcsn⟩ hlines
  obtain ⟨-, h⟩ | ⟨-, t, -, ⟨-, -, -, h⟩ | ⟨r, -, hc, hhigh, hend⟩⟩ := transact_cases p cmd s
  · rw [h]
    exact ⟨hce, hcsn⟩
  · rw [h] at hlines
    exact absurd ⟨_, rfl⟩ (hlines _ rfl)
  · have hstate : (transact p cmd s).state = t := by
      obtain ⟨-, h⟩ | ⟨-, ⟨e, -, h⟩ | ⟨rx, -, h⟩⟩ := hend <;> rw [h] <;> rfl
    rw [hstate]
    exact ⟨hc.ce.trans hce, hhigh⟩

theorem keepsLinesIdle_busSteps (p : Config.Params) : BusSteps p KeepsLinesIdle fun _ => True where
  refl _ h _ := h
  trans h h' hs he := h' (h hs nofun) he
  transact cmd s _ := transact_keepsLinesIdle cmd s
  setTemps _ _ _ h _ := h
  updateCfg _ _ _ h _ := h
  configFault _ h _ := h

/-- R152, R155: where a run of `construct` may end: with idle lines, or with a failed line write. -/
def EndsIdle {α : Type} (r : Res α) : Prop := r.Ends LinesIdle fun e t => ¬ e.IsLineFailure → LinesIdle t

theorem KeepsLinesIdle.ends {α : Type} {r : Res α} (h : Holds KeepsLinesIdle s r) (hs : LinesIdle s) : EndsIdle r := by
  cases r with
  | done a t => exact h hs nofun
  | stop e t => exact fun he => h hs fun x hx => by cases hx; exact he

/-- R17, R135: with CE low, the write of 1 to CSN leaves idle lines or is itself what failed. -/
theorem pin_csn_endsIdle (hce : s.ce = false) : EndsIdle (pin .csn true s) := by
  obtain ⟨s1, hs1, hcsn | hcsn⟩ := pin_cases .csn true s <;> rw [hcsn]
  · obtain rfl | ⟨rest, rfl⟩ := hs1 <;> exact ⟨hce, rfl⟩
  · exact fun hn => absurd ⟨_, rfl⟩ hn

/-- R152: after its two line writes `construct` writes CSN in transactions only. -/
theorem constructBody_endsIdle (p : Config.Params) (batch : List BatchOp) (s : State) :
    EndsIdle (constructBody p batch s) := by
  have B := keepsLinesIdle_busSteps p
  rw [constructBody_eq]
  refine ((pin_ce_ends false _).mono (fun _ => id) fun e t he hn => absurd ⟨_, he⟩ hn).andThen fun _ s1 h1 => ?_
  refine (pin_csn_endsIdle h1.ce).andThen fun _ s2 h2 => ?_
  have h2 : LinesIdle ((s2.setCfg (constructCfg p)).setMode .standby) := h2
  refine (KeepsLinesIdle.ends (opIsConnected_holds B.toSequential trivial _) h2).andThen fun connected s3 h3 => ?_
  split
  · exact KeepsLinesIdle.ends (B.runBatch (fun _ _ => trivial) s3) h3
  · exact fun _ => h3

@[simp] theorem State.forgetWorking_ce (s : State) : s.forgetWorking.ce = s.ce := rfl
@[simp] theorem State.forgetModeCfg_ce (s : State) : s.forgetModeCfg.ce = s.ce := rfl

/-- R32: what `construct` does after its body drives no line. -/
theorem opConstruct_lines (p : Config.Params) (batch : List BatchOp) (s : State) :
    LinesIdle (opConstruct p batch s).state ↔ LinesIdle (constructBody p batch s).state := by
  unfold opConstruct
  split <;> rename_i hbody <;> rw [hbody] <;> simp [LinesIdle]

/-- R155: unless its outcome is a failed line write, `construct` leaves the lines idle. -/
theorem opConstruct_linesIdle (h : ∀ l, (opConstruct p batch s).outcome ≠ .fault (.lineWriteFailed l)) :
    LinesIdle (opConstruct p batch s).state := by
  have hend := constructBody_endsIdle p batch s
  rw [opConstruct_lines]
  cases hbody : constructBody p batch s with
  | done a t => rwa [hbody] at hend
  | stop e t =>
    rw [hbody] at hend
    refine hend ?_
    rintro ⟨l, rfl⟩
    exact h l (by rw [opConstruct, hbody]; rfl)

/-- Settles O40: the bits and the lines by what `construct`'s body can do; each early end of the opening and the check
in its environment. -/
theorem failedConstructionIsNotLive : Obligations.FailedConstructionIsNotLive := by
  refine ⟨fun batch s t o hexec hout hfails => ?_, fun batch s st v hv ha => ?_, fun batch s e ha => ?_,
    fun batch s rest hl => ?_⟩
  · rw [exec_construct] at hexec
    cases hexec
    obtain rfl := finish_outcome (i := .construct batch) hout
    obtain ⟨hfault, hlive⟩ := opConstruct_bits s.params batch s
    exact ⟨Bool.eq_false_iff.2 (mt hlive.1 hfails), hfault, opConstruct_linesIdle⟩
  · obtain ⟨t, -, r, hbody⟩ := constructBody_checked s.params batch (lines := 0) ha
    rw [if_neg (mt plausibleAw_iff_le.1 (Nat.not_le.2 hv))] at hbody
    obtain ⟨u, hexec, hout, htrace⟩ := exec_construct_stops hbody
    exact ⟨u, hexec, hout, htrace.trans r.trace⟩
  · obtain ⟨t, r, hbody⟩ := constructBody_check_fails s.params batch ha
    obtain ⟨u, hexec, hout, htrace⟩ := exec_construct_stops hbody
    exact ⟨u, hexec, hout, htrace.trans r.trace⟩
  · have hbody := constructBody_eq s.params batch s
    rw [pin_fails (s := (s.setLive false).setFault false) .ce false hl, Res.andThen_stop] at hbody
    obtain ⟨u, hexec, hout, htrace⟩ := exec_construct_stops hbody
    exact ⟨u, hexec, hout, by simpa using htrace⟩

end Sys2Proof.Machine

/-! ## Construction and the past

R156: `construct` writes mode, cache, CE, `live` and `fault` before it reads them. -/

namespace Sys2Proof.Machine

variable {p : Config.Params} {s s' t t' : State}

/-! ### What is written before it is read -/

/-- The block with no meaning in mode and cache. -/
def State.clearModeCfg (s : State) : State := (s.setMode .standby).setCfg 0#8

/-- The block with no meaning in what `construct` writes first (R152). -/
def State.unconstructed (s : State) : State := s.bitsCleared.clearModeCfg.setCe false

/-- The same end in the state that an update makes of the last one. -/
def Res.onState {α : Type} (g : State → State) : Res α → Res α
  | .done a t => .done a (g t)
  | .stop e t => .stop e (g t)

/-- R11: whether a line write succeeds is a matter of the environment alone. -/
theorem nextLine_clearModeCfg (s : State) : s.clearModeCfg.nextLine = (s.nextLine.1, s.nextLine.2.clearModeCfg) := by
  cases hs : s.lineAnswers with
  | nil => rw [nextLine_nil hs, nextLine_nil (s := s.clearModeCfg) hs]; rfl
  | cons ok rest => rw [nextLine_cons hs, nextLine_cons (s := s.clearModeCfg) hs]; rfl

theorem nextLine_setCe (b : Bool) (s : State) : (s.setCe b).nextLine = (s.nextLine.1, s.nextLine.2.setCe b) := by
  cases hs : s.lineAnswers with
  | nil => rw [nextLine_nil hs, nextLine_nil (s := s.setCe b) hs]; rfl
  | cons ok rest => rw [nextLine_cons hs, nextLine_cons (s := s.setCe b) hs]; rfl

/-- R11: a line write reads neither mode nor cache. -/
theorem pin_clearModeCfg (l : Line) (b : Bool) (s : State) :
    pin l b s.clearModeCfg = (pin l b s).onState State.clearModeCfg := by
  unfold pin
  rw [nextLine_clearModeCfg]
  obtain ⟨ok, t⟩ := s.nextLine
  cases l <;> cases ok <;> rfl

/-- R16: a write of CE does not read its level. -/
theorem pin_ce_setCe (b x : Bool) (s : State) : pin .ce b (s.setCe x) = pin .ce b s := by
  unfold pin
  rw [nextLine_setCe]
  obtain ⟨ok, t⟩ := s.nextLine
  cases ok <;> rfl

/-- R152, R156: `construct` reads nothing of what it writes first. -/
theorem opConstruct_unconstructed (p : Config.Params) (batch : List BatchOp) (s : State) :
    opConstruct p batch s.unconstructed = opConstruct p batch s := by
  have start : (s.unconstructed.setLive false).setFault false =
      ((s.setLive false).setFault false).clearModeCfg.setCe false := rfl
  unfold opConstruct
  rw [constructBody_eq, constructBody_eq, start, pin_ce_setCe, pin_clearModeCfg]
  cases pin .ce false ((s.setLive false).setFault false) with
  | stop e s1 => rfl
  | done _ s1 =>
    simp only [Res.onState, Res.andThen_done, pin_clearModeCfg]
    cases pin .csn true s1 with
    | stop e s2 => rfl
    | done _ s2 => rfl

/-! ### Two constructions in lockstep -/

/-- From `s` and `s'` two constructions are at `t` and `t'`: the blocks differ in nothing a rule reads but the requests
to come, nor in CE, and have performed the same events. -/
structure Abreast (s s' t t' : State) : Prop where
  alongside : Alongside s s' t (t'.setRequests t.requests)
  ce : t.ce = t'.ce

theorem abreast_lockstep (s s' : State) : Lockstep (Abreast s s') where
  mode h := h.alongside.same.mode
  cfg h := h.alongside.same.cfg
  exchAnswers h := h.alongside.same.exchAnswers
  lineAnswers h := h.alongside.same.lineAnswers
  draws h := h.alongside.same.draws
  setMode m h := ⟨(alongside_lockstep s s').setMode m h.alongside, h.ce⟩
  setCfg c h := ⟨(alongside_lockstep s s').setCfg c h.alongside, h.ce⟩
  setLine l b h := by
    have moved := (alongside_lockstep s s').setLine l b h.alongside
    cases l
    · exact ⟨moved, rfl⟩
    · exact ⟨moved, h.ce⟩
  setLive b h := ⟨(alongside_lockstep s s').setLive b h.alongside, h.ce⟩
  setFault b h := ⟨(alongside_lockstep s s').setFault b h.alongside, h.ce⟩
  setBuf bytes n h := ⟨(alongside_lockstep s s').setBuf bytes n h.alongside, h.ce⟩
  setTemps old new h := ⟨(alongside_lockstep s s').setTemps old new h.alongside, h.ce⟩
  record e h := ⟨(alongside_lockstep s s').record e h.alongside, h.ce⟩
  setExchAnswers xs h := ⟨(alongside_lockstep s s').setExchAnswers xs h.alongside, h.ce⟩
  setLineAnswers xs h := ⟨(alongside_lockstep s s').setLineAnswers xs h.alongside, h.ce⟩
  draw h := ⟨(alongside_lockstep s s').draw h.alongside, h.ce⟩

/-- Two blocks with the same parameters in the same environment, as `construct` finds them. -/
theorem abreast_unconstructed (hparams : s.params = s'.params) (hexch : s.exchAnswers = s'.exchAnswers)
    (hlines : s.lineAnswers = s'.lineAnswers) (hdraws : s.draws = s'.draws) :
    Abreast s s' s.unconstructed s'.unconstructed where
  alongside := {
    same := ⟨hparams, rfl, rfl, rfl, rfl, rfl, hexch, hlines, hdraws⟩
    outcomes := rfl
    outcomes' := rfl
    trace := ⟨[], (List.append_nil _).symm, (List.append_nil _).symm⟩ }
  ce := rfl

/-- R136: an operation that is performed is not refused. -/
theorem Res.outcome_ne_refused (r : Res Value) (reason : RefusalReason) : r.outcome ≠ .refused reason := by
  cases r with
  | done v t => exact nofun
  | stop e t => cases e <;> exact nofun

/-- Settles O41: what `construct` reads of the past it has first written, and two constructions that begin alike go on
in lockstep. -/
theorem constructIgnoresThePast : Obligations.ConstructIgnoresThePast := by
  intro batch s s' t t' hparams hexch hlines hdraws ht ht'
  have twin := (abreast_lockstep s s').construct s.params batch (abreast_unconstructed hparams hexch hlines hdraws)
  rw [opConstruct_unconstructed, opConstruct_unconstructed] at twin
  rw [exec_construct] at ht
  rw [exec_construct, ← hparams] at ht'
  cases ht
  cases ht'
  obtain ⟨⟨same, houtcomes, houtcomes', events, htrace, htrace'⟩, hce⟩ := twin.state
  refine ⟨(opConstruct s.params batch s).outcome, events, Res.outcome_ne_refused _, ?_, ?_, htrace, htrace',
    same.live, same.fault, same.mode, same.cfg, hce⟩
  · exact congrArg (· ++ _) houtcomes
  · rw [twin.outcome]
    exact congrArg (· ++ _) houtcomes'

end Sys2Proof.Machine

/-! ## Reading back an encoding

R54 to R69: the request that spells an instruction decodes to it.  A wire command is its frame, which
`decodeFrame_encodeFrame` reads back; a host operation is its select code and operands, which are read back here. -/

namespace Sys2Proof

/-- R62, R69: an instruction without a select code is a wire command. -/
theorem exists_ofCommand_of_selOf_none {i : Instr} (h : selOf i = none) : ∃ c, i = Instr.ofCommand c := by
  cases i with
  | wireReadRegister a w => exact ⟨.readRegister a w, rfl⟩
  | wireWriteRegister a w v => exact ⟨.writeRegister a w v, rfl⟩
  | wireReadRxPayload n => exact ⟨.readRxPayload n, rfl⟩
  | wireReadRxPayloadWidth => exact ⟨.readRxPayloadWidth, rfl⟩
  | wireWriteTxPayload d => exact ⟨.writeTxPayload d, rfl⟩
  | wireFlushTx => exact ⟨.flushTx, rfl⟩
  | wireFlushRx => exact ⟨.flushRx, rfl⟩
  | wireActivate => exact ⟨.activate, rfl⟩
  | _ => cases h

/-- R54, R66: the well-formed wire commands are those of the commands that have a frame. -/
theorem wf_ofCommand (c : Command) : (Instr.ofCommand c).wf = c.wfWire := by
  cases c <;> rfl

/-- R54: the request of a wire command is the command's frame. -/
theorem encode_ofCommand (p : Config.Params) (c : Command) :
    encode p (Instr.ofCommand c) = ⟨.wire, encodeFrame p c⟩ := by
  cases c <;> rfl

theorem decode_encode_ofCommand {p : Config.Params} (hp : p.Valid) {c : Command} (hwf : c.wfWire = true) :
    decode p (encode p (Instr.ofCommand c)) = .ok (Instr.ofCommand c) := by
  rw [encode_ofCommand]
  simp only [decode, decodeWire, decodeFrame_encodeFrame hp hwf]

/-- R69: the assigned select codes end at `LAST_SEL`. -/
theorem selOf_le_last {i : Instr} {sel : BitVec 5} (h : selOf i = some sel) : sel.toNat ≤ LAST_SEL := by
  cases i <;> cases h <;> decide

/-- R69: the select code picks the reader of the operands that are behind it. -/
theorem getOperands_putOperands {p : Config.Params} (hp : p.Valid) {i : Instr} (hwf : i.wf = true) {sel : BitVec 5}
    (hsel : selOf i = some sel) (r : List Byte) : getOperands p sel.toNat (putOperands p i ++ r) = some (i, r) := by
  cases i with
  | construct batch =>
    cases hsel
    have hbatch : ∀ op ∈ batch, op.wf = true := List.all_eq_true.1 hwf
    simp [getOperands, putOperands, getBatch_putList hp batch hbatch]
  | sendCommand c =>
    cases hsel
    simp [getOperands, putOperands, getCommand_putCommand hp c hwf]
  | writeRegister a w v =>
    cases hsel
    obtain ⟨hw, hv⟩ : widthOk w = true ∧ v.length = w := by simpa [Instr.wf] using hwf
    simp [getOperands, putOperands, getRegValue_putRegValue a w v hw hv]
  | readRegister a w =>
    cases hsel
    have hw : widthOk w = true := hwf
    simp [getOperands, putOperands, getAddr_putAddr, getWidth_putWidth w hw]
  | updateRegister a w f =>
    cases hsel
    obtain ⟨hw, -⟩ : widthOk w = true ∧ f.wf w = true := by simpa [Instr.wf] using hwf
    simp [getOperands, putOperands, getAddr_putAddr, getWidth_putWidth w hw, getMutator_putMutator]
  | updateConfig f =>
    cases hsel
    simp [getOperands, putOperands, getMutator_putMutator]
  | send d =>
    cases hsel
    simp [getOperands, putOperands, getBytes_putBytes]
  | ceEnable | ceDisable | isConnected | enterRx | enterTx | waitTxReady | waitTxEmpty | waitRxReady | read
  | clearInterrupts =>
    cases hsel
    rfl
  | wireReadRegister | wireWriteRegister | wireReadRxPayload | wireReadRxPayloadWidth | wireWriteTxPayload
  | wireFlushTx | wireFlushRx | wireActivate => cases hsel

/-- R69: a host operation is read back from its select code and operands, with no byte left over. -/
theorem decode_encode_of_selOf {p : Config.Params} (hp : p.Valid) {i : Instr} (hwf : i.wf = true) {sel : BitVec 5}
    (hsel : selOf i = some sel) : decode p (encode p i) = .ok i := by
  have hcode : (sel.setWidth 8 : Byte).toNat = sel.toNat := BitVec.toNat_setWidth_of_le (by decide)
  have hread : getOperands p sel.toNat (putOperands p i) = some (i, []) := by
    simpa using getOperands_putOperands hp hwf hsel []
  simp [encode, hsel, decode, decodeOp, hcode, Nat.not_lt.2 (selOf_le_last hsel), hread, hwf]

/-- Settles O1, by the two encoding spaces: frames, and operations behind their select code. -/
theorem decodeInvertsEncode : Obligations.DecodeInvertsEncode := by
  intro p i hp hwf
  cases hsel : selOf i with
  | none =>
    obtain ⟨c, rfl⟩ := exists_ofCommand_of_selOf_none hsel
    exact decode_encode_ofCommand hp ((wf_ofCommand c).symm.trans hwf)
  | some sel => exact decode_encode_of_selOf hp hwf hsel

end Sys2Proof

/-! ## The shape of the state at reset -/

namespace Sys2Proof.Machine

/-- R20, R21: the working registers that a block begins with are in shape, whatever its parameters. -/
theorem resetWith_working (p : Config.Params) : WorkingWf (State.resetWith p) where
  buf := List.length_replicate
  lenPos := Nat.le_refl 1
  lenLe := show 1 ≤ Config.BUF_LEN by decide
  oldWidth := rfl
  newWidth := rfl

/-- R8, R17: a block is in shape before any `construct` exactly when its parameters are valid; chip-select is high. -/
theorem resetWith_wf_iff {p : Config.Params} : (State.resetWith p).Wf ↔ p.Valid :=
  ⟨State.Wf.params, fun hp => wf_iff.2 ⟨hp, resetWith_working p, fun _ => rfl⟩⟩

/-- Settles O54: the default parameters are valid. -/
theorem resetHasStateShape : Obligations.ResetHasStateShape :=
  resetWith_wf_iff.2 defaults_valid

end Sys2Proof.Machine
